-- ==== Sys2Proof/Word.lean ====
section
/-! DEFINITION. The two word types of the block: the byte of one exchange and the 32-bit cursor or argument. -/

namespace Sys2Proof

/-- One byte of an exchange: 8 bits, unsigned (R11). -/
abbrev Byte := BitVec 8

/-- A cursor, a command argument, a device address: `ADDR_W` = 32 bits, unsigned (R9, R11, R70). -/
abbrev Word := BitVec 32

end Sys2Proof
end

