-- ==== Sys2Proof/Config.lean ====
section
/-! DEFINITION. The parameters the spec leaves open (R9, 93_implementation_defined.md) and the free values: constants with no body. -/

namespace Sys2Proof

/-- One answer of the payload source to `PayloadNext()` (R147): `valid = false` is "no more data". -/
structure PayloadAnswer where
  valid : Bool
  byte : Byte
  deriving DecidableEq, Repr, Inhabited

/-- The order in which the transport shifts the bits of a byte (R105, D29). -/
inductive BitOrder where
  | msbFirst
  | lsbFirst
  deriving DecidableEq, Repr, Inhabited

/-- The transport's clock polarity and clock phase (R105, D29). -/
structure BusMode where
  clockPolarity : Bool
  clockPhase : Bool
  deriving DecidableEq, Repr, Inhabited

namespace Config

/-- `FILLER_BYTE`, the value of the two filler bytes of a written packet (R257, D11).
The spec's vectors use `0xFF`; the model does not fix it. -/
opaque fillerByte : Byte

/-- `DEVICE_CAPACITY` (R9, D33). The block never reads it (R10, R82), and no rule of the model does. -/
opaque deviceCapacity : Nat

/-- `BIT_ORDER` of the transport (R105, D29). No rule of the block reads it. -/
opaque bitOrder : BitOrder

/-- `BUS_MODE` of the transport (R105, D29). No rule of the block reads it. -/
opaque busMode : BusMode

/-- `CS_ACTIVE_LEVEL`: the level of the chip-select line that selects the device (R42, D29). -/
opaque csActiveLevel : Bool

/-- The answer the payload source gives to its `n`-th request that no scripted answer serves:
"It may answer any (valid, byte) at any call" (R155, U-2). -/
opaque payloadAnswer : Nat → PayloadAnswer

end Config

end Sys2Proof
end

