-- ==== Sys2Proof/Machine/Bytes.lean ====
section
/-! DEFINITION. Big-endian helpers and the fields of a command frame (R13, R100 to R104). -/

namespace Sys2Proof.Machine

/-- `byte_k(v)`: the k-th byte of `v` in big-endian order (R13). -/
def byteK (k : Nat) (v : Word) : Byte :=
  match k with
  | 0 => v.extractLsb' 24 8
  | 1 => v.extractLsb' 16 8
  | 2 => v.extractLsb' 8 8
  | _ => v.extractLsb' 0 8

/-- `BE32(b0, b1, b2, b3)` (R13). -/
def be32 (b0 b1 b2 b3 : Byte) : Word := b0 ++ b1 ++ b2 ++ b3

/-- `trailer(op)`: fixed per opcode, never computed (R103, C3). -/
def trailer (op : BitVec 6) : Byte :=
  if op = 0 then 0x95 else if op = 8 then 0x87 else 0x00

/-- Byte 0 of a frame: `0x40 | opcode` (R100, R101). -/
def frameByte0 (op : BitVec 6) : Byte := 0x40 ||| op.setWidth 8

/-- The six bytes of a frame, first on the bus first (R100). -/
def frameBytes (op : BitVec 6) (arg : Word) : List Byte :=
  [frameByte0 op, byteK 0 arg, byteK 1 arg, byteK 2 arg, byteK 3 arg, trailer op]

/-- The `n` bytes of an `8n`-bit unit numbered as the opcode table numbers it: the first byte on
the bus is the most significant (R104 for frames, `source_fields` of the table for the others). -/
def bytesOfWord : Nat → Nat → List Byte
  | 0, _ => []
  | n + 1, w => BitVec.ofNat 8 (w >>> (8 * n)) :: bytesOfWord n w

end Sys2Proof.Machine
end

