-- ==== Sys2Proof/Syntax.lean ====
section
/-! DEFINITION. The block's instruction set, one constructor per row of spec/opcode_table.json, with the enumerated registers and the script operations that carry instructions to the block. -/

namespace Sys2Proof

/-- `s.phase` (R32). The two transient phases are never held at the end of a step (R49); the
reserved values 0 and 15 are unrepresentable (U-4). -/
inductive Phase where
  | powerOnClock
  | awaitReset
  | awaitInterfaceCheck
  | awaitReady
  | awaitBlockLenAck
  | awaitReadAck
  | awaitDataToken
  | readMetadataBlock
  | ready
  | writing
  | awaitWriteBusy
  | awaitStatus
  | deselectIdle
  | fault
  deriving DecidableEq, Repr

/-- `s.mode` (R34). The reserved value 3 is unrepresentable (U-4). -/
inductive Mode where
  | idle
  | sendingCommand
  | awaitingResponse
  deriving DecidableEq, Repr

/-- `s.variant` (R33): `super` writes the metadata block, `data` a data block. -/
inductive Variant where
  | data
  | super
  deriving DecidableEq, Repr

/-- The sequencer's position, which "plays the part of a program counter" (R30), with the mode
(R34): what decides how a byte on the bus is read (R117). -/
structure Position where
  phase : Phase
  mode : Mode
  step : Byte
  deriving DecidableEq, Repr

/-- The instruction set. Outbound rows are units the block hands over, inbound rows are units the
device sends, host rows are the operations of the host interface (R3). -/
inductive Instr where
  /-- CMD0, reset (R174). -/
  | cmd0
  /-- CMD8, interface and voltage check (R175). -/
  | cmd8
  /-- CMD1, begin initialization (R176). -/
  | cmd1
  /-- CMD16, set block length 128 (R177). -/
  | cmd16
  /-- CMD17, read block 0 (R178). -/
  | cmd17
  /-- CMD24, write block at `addr` (R179). -/
  | cmd24 (addr : Word)
  /-- CMD13, check status (R180). -/
  | cmd13
  /-- DATA_TOKEN_OUT: the data token `0xFE`, packet byte 0 of a write (R253). -/
  | dataTokenOut
  /-- DATA_PACKET_OUT: the write packet with this 128-byte payload (R108, R254). -/
  | dataPacketOut (payload : List Byte)
  /-- IDLE_OUT: the idle byte `0xFF` (R111). -/
  | idleOut
  /-- R1_IDLE: the response byte `0x01` (R202, R203, R204). -/
  | r1Idle
  /-- R1_READY: the response byte `0x00` (R204, R205, R206, R253, R260). -/
  | r1Ready
  /-- CMD8_ECHO: the five bytes `01 00 00 01 AA` (R203). -/
  | cmd8Echo
  /-- CMD13_STATUS: two consecutive `0x00` bytes (R260, R261). -/
  | cmd13Status
  /-- READ_TOKEN_IN: the start-of-data token `0xFE` (R207). -/
  | readTokenIn
  /-- TOKEN_WAIT_IN: `0xFF` while the block waits for the data token (R207). -/
  | tokenWaitIn
  /-- READ_PACKET_IN: the 130 bytes of the read packet (R230). -/
  | readPacketIn (bytes : List Byte)
  /-- DATA_ACCEPT_IN: a byte with low nibble `0x5`; the high nibble is not examined (R115, R258). -/
  | dataAcceptIn (high : BitVec 4)
  /-- BUSY_IN: `0xFF` while the device is busy (R259). -/
  | busyIn
  /-- RESPONSE_WAIT_IN: `0xFF` before the first byte of a response (R146). -/
  | responseWaitIn
  /-- The host operation `initialize()` (R142). -/
  | initializeOp
  /-- The transport's completion event with received byte `rx` (R143). -/
  | onByteTransferred (rx : Byte)
  /-- The host's trigger `request_write(available)` (R149). -/
  | requestWrite (available : Bool)
  deriving DecidableEq, Repr

/-- One line of a script (R120): the host's, the device's and the payload source's operations, and
`wire`, a unit of the bus protocol given by its bytes in the order they pass on the bus (R100, R108,
R113). A repeat count (`*n`) is that many lines. -/
inductive ScriptOp where
  /-- `init`: the host calls `initialize()`. -/
  | init
  /-- `ev XX`: a completion event with received byte `XX`. -/
  | ev (rx : Byte)
  /-- `rw a`: the host calls `request_write(a)`. -/
  | rw (available : Bool)
  /-- `pay ...`: what the payload source answers to the next `PayloadNext()` calls, in order. -/
  | pay (answers : List PayloadAnswer)
  /-- A unit of the bus protocol, by its bytes. -/
  | wire (bytes : List Byte)
  deriving DecidableEq, Repr

/-- Why a line of the script is no row of the opcode table. -/
inductive DecodeError where
  /-- No unit has this many bytes (R100, R108, R113, R117). -/
  | noSuchLength
  /-- A one-byte unit outside the table. -/
  | noSuchByte
  /-- Two bytes other than `00 00` (R113). -/
  | notStatus
  /-- Five bytes other than `01 00 00 01 AA` (R113). -/
  | notEcho
  /-- Six bytes that are none of the seven frames the block emits (R107). -/
  | noSuchFrame
  /-- 131 bytes that are no write packet: a wrong token or wrong filler bytes (R108). -/
  | notPacket
  /-- A `pay` line: the payload source's, and no operation of the block (R120, R147). -/
  | payloadLine
  deriving DecidableEq, Repr

end Sys2Proof
end

