-- ==== Sys2Proof/Machine/State.lean ====
section
/-! DEFINITION. The block's registers (10_state.md), its ports, the storage address space it reaches, and the reasons a step can stop. -/

namespace Sys2Proof.Machine

/-- `s.frame[0..5]`: the command frame (R37). -/
structure Frame where
  b0 : Byte
  b1 : Byte
  b2 : Byte
  b3 : Byte
  b4 : Byte
  b5 : Byte
  deriving DecidableEq, Repr

/-- The outcome of one step of the block, as the step reports it on its ports (R15, R150). -/
inductive StepOutcome where
  /-- `Transmit(b)`: byte `b` is handed to the transport. -/
  | transmit (b : Byte)
  /-- `Pause()`: nothing is handed over. -/
  | pause
  /-- `Rejected`: a `request_write` outside its precondition; no register is written. -/
  | rejected
  deriving DecidableEq, Repr

/-- The error classes (R301). `metadataCorruption` never raises Fault (R234). -/
inductive FaultClass where
  | bringupMismatch
  | metadataCorruption
  | writeAckFailure
  | busTimeout
  deriving DecidableEq, Repr

/-- The block write the device has under way: the address of the last CMD24 and the payload bytes
handed over so far (R76). -/
structure BlockWrite where
  addr : Word
  data : List Byte
  deriving DecidableEq, Repr

/-- The storage device's address space (R70): the bytes the model knows, addresses strictly rising.
What an unlisted address holds is not known to the model (U-13). -/
abbrev Memory := List Host.Cell

/-- The state: the registers of R31, then the environment's ports and the device's side (R8, R140),
then what the block's last step reported. -/
structure State where
  /-- `s.phase` (R32). -/
  phase : Phase
  /-- `s.variant` (R33). -/
  variant : Variant
  /-- `s.mode` (R34). -/
  mode : Mode
  /-- `s.step` (R35). -/
  step : Byte
  /-- `s.wait_count` (R36). -/
  waitCount : Byte
  /-- `s.frame` (R37). -/
  frame : Frame
  /-- `s.cursor` (R38). -/
  cursor : Word
  /-- `s.cursor_alt` (R39). -/
  cursorAlt : Word
  /-- `s.meta_c` (R40). -/
  metaC : Word
  /-- `s.super_done` (R41). -/
  superDone : Bool
  /-- `s.selected` (R42). -/
  selected : Bool
  /-- `s.in_flight` (R43). -/
  inFlight : Bool
  /-- `initialize` has been called since power-up (R51). -/
  started : Bool
  /-- The host's and the device's operations to come, next first (R120). -/
  script : List ScriptOp
  /-- The payload source's answers that `pay` lines have loaded, next first (R120, R147). -/
  payload : List PayloadAnswer
  /-- How many requests the payload source has answered by a free value (R155). -/
  payloadCount : Nat
  /-- The storage device's address space (R70). -/
  mem : Memory
  /-- The block write the device has under way (R76). -/
  pending : Option BlockWrite
  /-- The outcomes reported since the last operation was taken from the script (R15). -/
  outs : List StepOutcome
  /-- The error classes raised since then: a ghost, read by no rule (R303). -/
  raised : List FaultClass
  deriving DecidableEq, Repr

/-- States the registers' encodings can hold and no run reaches, where a rule has no value to go on. -/
inductive Fault where
  /-- An event is dispatched while `s.phase` holds a transient phase (R49). Raised by the phase
  dispatch; safe: the hardware is never in such a state. -/
  | transientPhaseHeld
  /-- AwaitInterfaceCheck with `s.step` above 4, where `ECHO[s.step]` does not exist (R35, R203).
  Raised by that phase's handler; safe: the hardware is never in such a state. -/
  | echoIndexOutOfRange
  deriving DecidableEq, Repr

/-- Why a step has no meaning. -/
inductive Refusal where
  /-- The row has no meaning yet. Raised by `exec`'s refused arms; safe. -/
  | notModelled (mnemonic : String)
  /-- No operation is left on the script: a step is one operation (R7). Raised by `step`; safe. -/
  | scriptEnded
  /-- The unit on the script is no row of the table (R107). Raised by `step`; safe. -/
  | undecodable (reason : DecodeError)
  /-- An operation other than `initialize` before the first `initialize` (R51, R157). Raised by every
  meaning but `initialize`; safe. -/
  | beforeInitialize
  /-- An event while nothing is in flight (R157, D26). Raised by every event; safe. -/
  | noExchangeInFlight
  /-- `initialize` while an exchange is in flight (R157, D25). Raised by `initialize`; safe. -/
  | exchangeInFlight
  /-- An event dispatched in Ready (R148, R251). Raised by the phase dispatch; safe. -/
  | eventInReady
  /-- An outbound unit while the bytes of a command frame are going out (R172, R181). Raised by the
  outbound rows; safe. -/
  | frameOutstanding
  /-- An outbound unit where no operation of the block hands that unit over (R30, R107, and the
  "Issued by" lines of R174 to R180). Raised by the outbound rows; safe. -/
  | unitNotDue
  deriving DecidableEq, Repr

/-- What one operation answers. -/
abbrev Result := Host.Outcome State Fault Refusal

/-- Six zero bytes (R37, R50). -/
def Frame.zero : Frame := ⟨0, 0, 0, 0, 0, 0⟩

/-- The machine right after `initialize` (R50): every register at its reset value, dummy byte 1 in
flight and reported, no operation scripted, no payload answer scripted, nothing known of the device's
blocks, no write under way. -/
def State.reset : State where
  phase := .powerOnClock
  variant := .data
  mode := .idle
  step := 1
  waitCount := 0
  frame := Frame.zero
  cursor := 0
  cursorAlt := 0
  metaC := 0
  superDone := false
  selected := false
  inFlight := true
  started := true
  script := []
  payload := []
  payloadCount := 0
  mem := []
  pending := none
  outs := [.transmit 0xFF]
  raised := []

end Sys2Proof.Machine
end

