-- ==== Sys2Proof/Machine/Memory.lean ====
section
/-! DEFINITION. The storage device's address space (20_memory.md): reading, writing and forgetting bytes in one canonical form. -/

namespace Sys2Proof.Machine

namespace Memory

/-- The byte an address holds, `none` where the model does not know it. -/
def read : Memory → Nat → Option Byte
  | [], _ => none
  | (b, v) :: m, a => if a = b then some v else read m a

/-- Store one byte. -/
def write : Memory → Nat → Byte → Memory
  | [], a, v => [(a, v)]
  | (b, w) :: m, a, v =>
    if a < b then (a, v) :: (b, w) :: m
    else if a = b then (a, v) :: m
    else (b, w) :: write m a v

/-- Drop what is known of one byte. -/
def forget : Memory → Nat → Memory
  | [], _ => []
  | (b, w) :: m, a => if a = b then m else (b, w) :: forget m a

/-- `MemWrite(a, n, v)`: consecutive bytes, the address modulo 2^32 (R16, R76, R78). -/
def writeBlock : Memory → Word → List Byte → Memory
  | m, _, [] => m
  | m, a, v :: vs => writeBlock (write m a.toNat v) (a + 1) vs

/-- Drop what is known of `n` consecutive bytes (U-13). -/
def forgetBlock : Memory → Word → Nat → Memory
  | m, _, 0 => m
  | m, a, n + 1 => forgetBlock (forget m a.toNat) (a + 1) n

/-- `MemRead(a, n)`: `n` consecutive bytes (R16, R75). -/
def readBlock (m : Memory) (a : Word) : Nat → List (Option Byte)
  | 0 => []
  | n + 1 => read m a.toNat :: readBlock m (a + 1) n

/-- The canonical form: addresses of the 32-bit space (R70), strictly rising from `low`. -/
def wfFrom (low : Nat) : Memory → Bool
  | [] => true
  | (a, _) :: m => decide (low ≤ a) && decide (a < 2 ^ 32) && wfFrom (a + 1) m

/-- The memory is in its canonical form. -/
def wf (m : Memory) : Bool := wfFrom 0 m

end Memory

end Sys2Proof.Machine
end

