-- ==== Sys2Proof/Machine/Params.lean ====
section
/-! DEFINITION. The block's fixed parameters, with the names and values of R9. -/

namespace Sys2Proof.Machine

/-- `IDLE_TX` (R9, R111, D4). -/
def idleTx : Byte := 0xFF

/-- The data token (R108, R114). -/
def dataToken : Byte := 0xFE

/-- `POWER_ON_DUMMY_BYTES` (R9, R201). -/
def powerOnDummyBytes : Byte := 100

/-- `DATA_TOKEN_WAIT_MAX` (R9, R207). -/
def dataTokenWaitMax : Byte := 250

/-- `READ_PACKET_LEN` (R9, R230). -/
def readPacketLen : Byte := 130

/-- `BLOCK_SIZE` (R9, R252). -/
def blockSize : Word := 128

/-- `QUARTER_REGION`, also `Q` (R9, R72). -/
def quarterRegion : Word := 0x00040000

/-- `Q_MASK` = `Q - 1` (R9). -/
def qMask : Word := 0x0003FFFF

/-- `DEFAULT_CURSOR` (R9, R235). -/
def defaultCursor : Word := 0x00040000

/-- The echo the block expects after CMD8 (R203). -/
def echoBytes : List Byte := [0x01, 0x00, 0x00, 0x01, 0xAA]

end Sys2Proof.Machine
end

