-- ==== Sys2Proof/Machine/Ops.lean ====
section
/-! DEFINITION. The primitives of R15 and R16, the command framer (R170 to R173), the entry to PowerOnClock (R200) and the Fault mechanism (R300). -/

namespace Sys2Proof.Machine

/-- `Transmit(b)` (R15). -/
def transmit (b : Byte) (s : State) : State :=
  { s with inFlight := true, outs := s.outs ++ [.transmit b] }

/-- `Pause()` (R15, R151). -/
def pause (s : State) : State :=
  { s with inFlight := false, outs := s.outs ++ [.pause] }

/-- `Rejected` (R15, R150): no register is written. -/
def reject (s : State) : State := { s with outs := s.outs ++ [.rejected] }

/-- `Select()` (R16). -/
def select (s : State) : State := { s with selected := true }

/-- `Deselect()` (R16). -/
def deselect (s : State) : State := { s with selected := false }

/-- Frame byte `k` (R37). -/
def Frame.get (f : Frame) (k : Nat) : Byte :=
  match k with
  | 0 => f.b0
  | 1 => f.b1
  | 2 => f.b2
  | 3 => f.b3
  | 4 => f.b4
  | _ => f.b5

/-- Set frame byte `k` to `0x00` (R173). -/
def Frame.clear (f : Frame) (k : Nat) : Frame :=
  match k with
  | 0 => { f with b0 := 0 }
  | 1 => { f with b1 := 0 }
  | 2 => { f with b2 := 0 }
  | 3 => { f with b3 := 0 }
  | 4 => { f with b4 := 0 }
  | _ => { f with b5 := 0 }

/-- The frame `Issue` builds (R170). -/
def buildFrame (op : BitVec 6) (arg : Word) : Frame :=
  ⟨frameByte0 op, byteK 0 arg, byteK 1 arg, byteK 2 arg, byteK 3 arg, trailer op⟩

/-- Hand frame byte `k` over and clear it in the same step (R172, R173). -/
def sendFrameByte (k : Nat) (s : State) : State :=
  transmit (s.frame.get k) { s with frame := s.frame.clear k }

/-- `Issue(op, arg, P)` (R170). -/
def issue (op : BitVec 6) (arg : Word) (next : Phase) (s : State) : State :=
  sendFrameByte 0
    { s with frame := buildFrame op arg, phase := next, mode := .sendingCommand, step := 1 }

/-- `FrameStep()` (R172). -/
def frameStep (s : State) : State :=
  if s.step < 6 then sendFrameByte s.step.toNat { s with step := s.step + 1 }
  else transmit idleTx { s with mode := .awaitingResponse, step := 0 }

/-- `EnterPowerOnClock()` (R200). -/
def enterPowerOnClock (s : State) : State :=
  transmit idleTx { s with phase := .powerOnClock, mode := .idle, step := 1 }

/-- The clears that `initialize` (R142) and Fault (R300) have in common. -/
def clearRegisters (s : State) : State :=
  { s with
    frame := Frame.zero, mode := .idle, step := 0, waitCount := 0, cursor := 0, cursorAlt := 0,
    metaC := 0, superDone := false, variant := .data }

/-- A block write that does not complete leaves its 128 bytes on the device unknown (R304, U-13). -/
def abandonWrite (s : State) : State :=
  match s.pending with
  | none => s
  | some w => { s with pending := none, mem := s.mem.forgetBlock w.addr 128 }

/-- Taking a fault, `raise Fault(class)`: phase 14, entered and left in one step (R300). The class
goes to the ghost only (R303). -/
def raiseFault (c : FaultClass) (s : State) : State :=
  enterPowerOnClock
    (clearRegisters (deselect (abandonWrite { s with raised := s.raised ++ [c] })))

/-- The block's reset (R142): "set every register to its value in the 'after initialize' column". -/
def resetBlock (s : State) : State :=
  enterPowerOnClock (clearRegisters (deselect (abandonWrite { s with started := true })))

/-- Go on with the next operation where the one before answered a next state. -/
def Result.andThen (r : Result) (f : State → Result) : Result :=
  match r with
  | .next s => f s
  | .fault e => .fault e
  | .refused e => .refused e

/-- The state a result answers, where it answers one. -/
def Result.next? (r : Result) : Option State :=
  match r with
  | .next s => some s
  | .fault _ => none
  | .refused _ => none

end Sys2Proof.Machine
end

