-- ==== Sys2Proof/Machine/Operands.lean ====
section
/-! DEFINITION. The operands the rules compute: the payload of a write packet (R109, R110, R255, R256), the payload-source port (R147), the capture of a metadata byte (R230). -/

namespace Sys2Proof.Machine

/-- `SuperByte(k)`: the cursor three times in big-endian, then zeros (R109, R255). -/
def superByte (k : Nat) (cursor : Word) : Byte :=
  if k < 12 then byteK (k % 4) cursor else 0x00

/-- The 128 payload bytes of the metadata block (R109). -/
def superPayload (cursor : Word) : List Byte := (List.range 128).map (superByte · cursor)

/-- The answer the payload source gives next: the scripted one, or a free value (R147, R155). -/
def nextAnswer (s : State) : PayloadAnswer :=
  match s.payload with
  | [] => Config.payloadAnswer s.payloadCount
  | a :: _ => a

/-- One request on the payload port takes that answer (R147). -/
def takeAnswer (s : State) : State :=
  match s.payload with
  | [] => { s with payloadCount := s.payloadCount + 1 }
  | _ :: rest => { s with payload := rest }

/-- `DataByte()`: the byte of a valid answer, `0x00` for "no more data" (R256, D23). -/
def dataByte (a : PayloadAnswer) : Byte := if a.valid then a.byte else 0x00

/-- A source that has only the byte-or-sentinel interface, connected as `valid = (byte != 0)` (R147). -/
def answerOfSentinel (b : Byte) : PayloadAnswer := ⟨b != 0x00, b⟩

/-- `(w << 8 | rx) mod 2^32` (R230). -/
def shiftIn (w : Word) (rx : Byte) : Word := (w <<< (8 : Nat)) ||| rx.setWidth 32

/-- Where packet byte `i` of the metadata block goes (R230). -/
def captureByte (rx : Byte) (s : State) : State :=
  if s.step ≤ 3 then { s with cursor := shiftIn s.cursor rx }
  else if s.step ≤ 7 then { s with cursorAlt := shiftIn s.cursorAlt rx }
  else if s.step ≤ 11 then { s with metaC := shiftIn s.metaC rx }
  else s

/-- Hand one payload byte of the write packet over; the device takes it in (R254, R76). -/
def sendPayloadByte (b : Byte) (s : State) : State :=
  transmit b
    { s with
      step := s.step + 1
      pending := s.pending.map fun w => { w with data := w.data ++ [b] } }

/-- `MemWrite(a, 128, p)`, the intended effect on the device once the busy poll ends (R76). The model
stores it at every 32-bit address: past `DEVICE_CAPACITY`, which the block never reads (R82, D33), is
log entry 27, and an address the block never issues (R79, D34) log entry 26. -/
def commitWrite (s : State) : State :=
  match s.pending with
  | none => s
  | some w => { s with mem := s.mem.writeBlock w.addr w.data }

end Sys2Proof.Machine
end

