-- ==== Sys2Proof/Machine/Flags.lean ====
section
/-! DEFINITION. The block has no arithmetic flags (R44): this file holds the tests its rules make, the encodings of the enumerated registers and the status outputs (R32 to R34, R45). -/

namespace Sys2Proof

/-- The 4-bit encoding of `s.phase` (R32). -/
def Phase.code : Phase → BitVec 4
  | .powerOnClock => 1
  | .awaitReset => 2
  | .awaitInterfaceCheck => 3
  | .awaitReady => 4
  | .awaitBlockLenAck => 5
  | .awaitReadAck => 6
  | .awaitDataToken => 7
  | .readMetadataBlock => 8
  | .ready => 9
  | .writing => 10
  | .awaitWriteBusy => 11
  | .awaitStatus => 12
  | .deselectIdle => 13
  | .fault => 14

/-- The 2-bit encoding of `s.mode` (R34). -/
def Mode.code : Mode → BitVec 2
  | .idle => 0
  | .sendingCommand => 1
  | .awaitingResponse => 2

/-- The 1-bit encoding of `s.variant` (R33). -/
def Variant.code : Variant → BitVec 1
  | .data => 0
  | .super => 1

namespace Machine

/-- The label of an error class, for the reader only: the block never outputs it (R301, D31). -/
def FaultClass.label : FaultClass → Nat
  | .bringupMismatch => 1
  | .metadataCorruption => 2
  | .writeAckFailure => 3
  | .busTimeout => 4

/-- The status outputs the host can read between steps (R45). -/
structure Status where
  phase : BitVec 4
  variant : BitVec 1
  mode : BitVec 2
  ready : Bool
  cursor : Word
  selected : Bool
  inFlight : Bool
  deriving DecidableEq, Repr

/-- `status.ready` (R45). -/
def State.isReady (s : State) : Bool := s.phase == .ready && !s.inFlight

/-- The status outputs as combinational functions of the registers (R45). -/
def State.status (s : State) : Status where
  phase := s.phase.code
  variant := s.variant.code
  mode := s.mode.code
  ready := s.isReady
  cursor := s.cursor
  selected := s.selected
  inFlight := s.inFlight

/-- The level on the chip-select line: the transport's polarity applied to `s.selected` (R42, D29). -/
def State.chipSelectLevel (s : State) : Bool :=
  if s.selected then Config.csActiveLevel else !Config.csActiveLevel

/-- The address is at the start of a quarter-region (R72). -/
def atRegionStart (a : Word) : Bool := a &&& qMask == 0

/-- The low nibble is that of the accept token (R115, R258). -/
def isAcceptToken (rx : Byte) : Bool := rx &&& 0x0F == 0x05

/-- MetadataCorruption: no two of the three copies agree (R301, R234). -/
def copiesDisagree (a b c : Word) : Bool := a != b && b != c && a != c

end Machine

end Sys2Proof
end

