-- ==== Sys2Proof/Machine/Commands.lean ====
section
/-! DEFINITION. The seven commands as the sequencer issues them (R174 to R180). -/

namespace Sys2Proof.Machine

/-- CMD0 (R174). -/
def issueCmd0 (s : State) : State := issue 0 0x00000000 .awaitReset s

/-- CMD8 (R175). -/
def issueCmd8 (s : State) : State := issue 8 0x000001AA .awaitInterfaceCheck s

/-- CMD1 (R176). -/
def issueCmd1 (s : State) : State := issue 1 0x00000000 .awaitReady s

/-- CMD16 (R177). -/
def issueCmd16 (s : State) : State := issue 16 0x00000080 .awaitBlockLenAck s

/-- CMD17 (R178). -/
def issueCmd17 (s : State) : State := issue 17 0x00000000 .awaitReadAck s

/-- CMD24 (R179): the device has a write at `addr` under way from here on (R76). -/
def issueCmd24 (addr : Word) (s : State) : State :=
  issue 24 addr .writing { s with pending := some ⟨addr, []⟩ }

/-- CMD13 (R180). -/
def issueCmd13 (s : State) : State := issue 13 0x00000000 .awaitStatus s

end Sys2Proof.Machine
end

