-- ==== Sys2Proof/Machine/BlockWrites.lean ====
section
/-! DEFINITION. The write decision and the handlers of phases 10 to 13 (44_block_write.md). -/

namespace Sys2Proof.Machine

/-- The data path of WriteDecision: the cursor is advanced when the command is issued (R252). -/
def writeData (s : State) : State :=
  issueCmd24 s.cursor
    { s with cursor := s.cursor + blockSize, superDone := false, variant := .data }

/-- The super path of WriteDecision: metadata first, addressed at block 0 (R252). -/
def writeSuper (s : State) : State := issueCmd24 0x00000000 { s with variant := .super }

/-- The address the WriteDecision issues its CMD24 at (R252, R179). -/
def writeAddress (s : State) : Word :=
  if s.cursor &&& qMask ≠ 0 ∨ s.superDone = true then s.cursor else 0x00000000

/-- `WriteDecision()` (R252). -/
def writeDecision (s : State) : State :=
  if s.cursor &&& qMask ≠ 0 ∨ s.superDone = true then writeData (select s)
  else writeSuper (select s)

/-- `DeselectIdle()`: phase 13, entered and left in one step (R263). -/
def deselectIdle (s : State) : State :=
  pause { deselect s with phase := .ready, variant := .data, step := 0 }

/-- Phase 10, Writing, the packet; the received byte is ignored (R254 to R257). -/
def handleWritingPacket (s : State) : State :=
  if s.step ≤ 128 then
    match s.variant with
    | .super => sendPayloadByte (superByte (s.step.toNat - 1) s.cursor) s
    | .data => sendPayloadByte (dataByte (nextAnswer s)) (takeAnswer s)
  else if s.step ≤ 130 then transmit Config.fillerByte { s with step := s.step + 1 }
  else transmit idleTx { s with phase := .awaitWriteBusy, step := 0 }

/-- The data token goes out in the step that receives the ack (R253). -/
def sendDataToken (s : State) : State := transmit dataToken { s with step := 1 }

/-- Phase 10, Writing: the acknowledgement, then the packet (R253, R254). -/
def handleWriting (rx : Byte) (s : State) : State :=
  if s.step = 0 then
    if rx ≠ 0x00 then raiseFault .writeAckFailure s else sendDataToken s
  else handleWritingPacket s

/-- Phase 11, AwaitWriteBusy, the busy poll: the write is complete when it ends (R259, R76). -/
def handleBusyPoll (rx : Byte) (s : State) : State :=
  if rx = 0xFF then transmit idleTx s else issueCmd13 (commitWrite s)

/-- Phase 11, AwaitWriteBusy: the accept token, then the busy poll (R258, R259). -/
def handleAwaitWriteBusy (rx : Byte) (s : State) : State :=
  if s.step = 0 then
    if isAcceptToken rx then transmit idleTx { s with step := 1 }
    else raiseFault .writeAckFailure s
  else handleBusyPoll rx s

/-- `AwaitStatus_done()`: after the metadata block the data block follows in the same step; after a
data block the block pauses in Ready (R261, R262). The device's write is no longer under way. -/
def awaitStatusDone (s : State) : State :=
  match s.variant with
  | .super => writeDecision { s with superDone := true, pending := none }
  | .data => deselectIdle { s with pending := none }

/-- Phase 12, AwaitStatus: two consecutive zero bytes (R260, R261). -/
def handleAwaitStatus (rx : Byte) (s : State) : State :=
  if rx ≠ 0x00 then raiseFault .writeAckFailure s
  else if s.step = 0 then transmit idleTx { s with step := 1 }
  else awaitStatusDone s

end Sys2Proof.Machine
end

