-- ==== Sys2Proof/Machine/BringUp.lean ====
section
/-! DEFINITION. The handlers of phases 1 to 7 (42_bringup.md). -/

namespace Sys2Proof.Machine

/-- Phase 1, PowerOnClock; the received byte is ignored (R201). -/
def handlePowerOnClock (s : State) : State :=
  if s.step < powerOnDummyBytes then transmit idleTx { s with step := s.step + 1 }
  else issueCmd0 (select s)

/-- Phase 2, AwaitReset (R202). -/
def handleAwaitReset (rx : Byte) (s : State) : State :=
  if rx = 0x01 then issueCmd8 s else raiseFault .bringupMismatch s

/-- Phase 3, AwaitInterfaceCheck (R203). -/
def handleAwaitInterfaceCheck (rx : Byte) (s : State) : Result :=
  match echoBytes[s.step.toNat]? with
  | none => .fault .echoIndexOutOfRange
  | some e =>
    if rx ≠ e then .next (raiseFault .bringupMismatch s)
    else if s.step + 1 = 5 then .next (issueCmd1 { s with step := s.step + 1 })
    else .next (transmit idleTx { s with step := s.step + 1 })

/-- Phase 4, AwaitReady (R204). -/
def handleAwaitReady (rx : Byte) (s : State) : State :=
  if rx = 0x01 then issueCmd1 s
  else if rx = 0x00 then issueCmd16 s
  else raiseFault .bringupMismatch s

/-- Phase 5, AwaitBlockLenAck (R205). -/
def handleAwaitBlockLenAck (rx : Byte) (s : State) : State :=
  if rx = 0x00 then issueCmd17 s else raiseFault .bringupMismatch s

/-- Phase 6, AwaitReadAck (R206). -/
def handleAwaitReadAck (rx : Byte) (s : State) : State :=
  if rx = 0x00 then transmit idleTx { s with phase := .awaitDataToken, waitCount := 0 }
  else raiseFault .bringupMismatch s

/-- Phase 7, AwaitDataToken: the token first, then the bounded wait, then the mismatch (R207, R306). -/
def handleAwaitDataToken (rx : Byte) (s : State) : State :=
  if rx = dataToken then transmit idleTx { s with phase := .readMetadataBlock, step := 0 }
  else if rx = 0xFF then
    if s.waitCount + 1 > dataTokenWaitMax then
      raiseFault .busTimeout { s with waitCount := s.waitCount + 1 }
    else transmit idleTx { s with waitCount := s.waitCount + 1 }
  else raiseFault .bringupMismatch s

end Sys2Proof.Machine
end

