-- ==== Sys2Proof/Machine/Recovery.lean ====
section
/-! DEFINITION. Position recovery and the handler of phase 8 (43_metadata_recovery.md). -/

namespace Sys2Proof.Machine

/-- `recover(A, B, C)`, majority or first copy (R232). -/
def recover (a b c : Word) : Word :=
  if a = b then a else if b = c then b else a

/-- `validate(v)` (R235). -/
def validate (v : Word) : Word :=
  if v = 0 ∨ v &&& qMask ≠ 0 then defaultCursor else v + quarterRegion

/-- The position-recovery function (R237). -/
def recoveredCursor (a b c : Word) : Word := validate (recover a b c)

/-- `Recover_and_enter_Ready()` (R231): it hands no byte over, so a whole bring-up hands over 270
bytes with dummy byte 1, where the total of R345's table says 271 (log entry 28). -/
def recoverAndEnterReady (s : State) : State :=
  pause
    { s with
      cursor := recoveredCursor s.cursor s.cursorAlt s.metaC
      step := 0
      phase := .ready }

/-- Count a captured packet byte and end the packet at its 130th (R230). -/
def countPacketByte (s : State) : State :=
  if s.step + 1 = readPacketLen then recoverAndEnterReady { s with step := s.step + 1 }
  else transmit idleTx { s with step := s.step + 1 }

/-- Phase 8, ReadMetadataBlock (R230). -/
def handleReadMetadataBlock (rx : Byte) (s : State) : State :=
  countPacketByte (captureByte rx s)

end Sys2Proof.Machine
end

