-- ==== Sys2Proof/Machine/Event.lean ====
section
/-! DEFINITION. Event dispatch: the completion event by mode and phase (R143 to R148), and a unit of several bytes as its events in order. -/

namespace Sys2Proof.Machine

/-- `PhaseDispatch(rx)` (R148). -/
def phaseDispatch (rx : Byte) (s : State) : Result :=
  match s.phase with
  | .powerOnClock => .next (handlePowerOnClock s)
  | .awaitReset => .next (handleAwaitReset rx s)
  | .awaitInterfaceCheck => handleAwaitInterfaceCheck rx s
  | .awaitReady => .next (handleAwaitReady rx s)
  | .awaitBlockLenAck => .next (handleAwaitBlockLenAck rx s)
  | .awaitReadAck => .next (handleAwaitReadAck rx s)
  | .awaitDataToken => .next (handleAwaitDataToken rx s)
  | .readMetadataBlock => .next (handleReadMetadataBlock rx s)
  | .ready => .refused .eventInReady
  | .writing => .next (handleWriting rx s)
  | .awaitWriteBusy => .next (handleAwaitWriteBusy rx s)
  | .awaitStatus => .next (handleAwaitStatus rx s)
  | .deselectIdle => .fault .transientPhaseHeld
  | .fault => .fault .transientPhaseHeld

/-- `ResponseWait(rx)` (R146). -/
def responseWait (rx : Byte) (s : State) : Result :=
  if rx = 0xFF then .next (transmit idleTx s)
  else phaseDispatch rx { s with mode := .idle, step := 0 }

/-- How each mode reads the received byte (R143, R144). -/
def dispatchEvent (rx : Byte) (s : State) : Result :=
  match s.mode with
  | .sendingCommand => .next (frameStep s)
  | .awaitingResponse => responseWait rx s
  | .idle => phaseDispatch rx s

/-- `on_byte_transferred(rx)` (R143), refused where R157 refuses it. -/
def byteEvent (rx : Byte) (s : State) : Result :=
  if s.started = false then .refused .beforeInitialize
  else if s.inFlight = false then .refused .noExchangeInFlight
  else dispatchEvent rx { s with inFlight := false }

/-- The events of a unit of several bytes, one for each byte in order (R80, R117). -/
def byteEvents : List Byte → State → Result
  | [], s => .next s
  | rx :: rest, s => (byteEvent rx s).andThen (byteEvents rest)

end Sys2Proof.Machine
end

