-- ==== Sys2Proof/Machine/HostOps.lean ====
section
/-! DEFINITION. The meanings of the three host operations (40_host_interface.md). -/

namespace Sys2Proof.Machine

/-- `initialize()` (R142): before first use, or paused; refused while an exchange is in flight (R157). -/
def execInitialize (s : State) : Result :=
  if s.started = true ∧ s.inFlight = true then .refused .exchangeInFlight
  else .next (resetBlock s)

/-- `on_byte_transferred(rx)` (R143). -/
def execOnByteTransferred (rx : Byte) (s : State) : Result := byteEvent rx s

/-- `request_write(available)` (R149), rejected outside Ready (R150) and refused before the first
`initialize` (R157). -/
def execRequestWrite (available : Bool) (s : State) : Result :=
  if s.started = false then .refused .beforeInitialize
  else if ¬ (s.phase = .ready ∧ s.inFlight = false) then .next (reject s)
  else if available = false then .next (pause s)
  else .next (writeDecision s)

end Sys2Proof.Machine
end

