-- ==== Sys2Proof/Machine/Inbound.lean ====
section
/-! DEFINITION. The meanings of the inbound rows: the device sends the unit's bytes, one completion event for each (R141, R154). -/

namespace Sys2Proof.Machine

/-- R1_IDLE (R202; R203 and R204 too). -/
def execR1Idle (s : State) : Result := byteEvent 0x01 s

/-- R1_READY (R204; R205, R206, R253, R260 and R261 too). -/
def execR1Ready (s : State) : Result := byteEvent 0x00 s

/-- CMD8_ECHO (R203). -/
def execCmd8Echo (s : State) : Result := byteEvents [0x01, 0x00, 0x00, 0x01, 0xAA] s

/-- CMD13_STATUS (R260, R261). -/
def execCmd13Status (s : State) : Result := byteEvents [0x00, 0x00] s

/-- READ_TOKEN_IN (R207). -/
def execReadTokenIn (s : State) : Result := byteEvent 0xFE s

/-- TOKEN_WAIT_IN (R207). -/
def execTokenWaitIn (s : State) : Result := byteEvent 0xFF s

/-- READ_PACKET_IN (R230, R231). -/
def execReadPacketIn (bytes : List Byte) (s : State) : Result := byteEvents bytes s

/-- DATA_ACCEPT_IN (R258); the high nibble is not examined (R115). -/
def execDataAcceptIn (high : BitVec 4) (s : State) : Result :=
  byteEvent (high ++ (0x5 : BitVec 4)) s

/-- BUSY_IN (R259). -/
def execBusyIn (s : State) : Result := byteEvent 0xFF s

/-- RESPONSE_WAIT_IN (R146). -/
def execResponseWaitIn (s : State) : Result := byteEvent 0xFF s

end Sys2Proof.Machine
end

