-- ==== Sys2Proof/Machine/Outbound.lean ====
section
/-! DEFINITION. The meanings of the outbound rows: the operation of the block that hands the unit over, and no other. Registers change only by the operations of 40_host_interface.md (R30), so a row runs where its "Issued by" line puts it and is that completion event, or that `request_write`. -/

namespace Sys2Proof.Machine

/-- The completion event that hands a unit over, its received byte `rx`, where the unit is due; the
event's own refusals come first (R157), and no unit but the frame under way goes out while a frame is
being sent (R181). -/
def handOver (due : Bool) (rx : Byte) (s : State) : Result :=
  if s.started = false then .refused .beforeInitialize
  else if s.inFlight = false then .refused .noExchangeInFlight
  else if s.mode = .sendingCommand then .refused .frameOutstanding
  else if due = true then byteEvent rx s
  else .refused .unitNotDue

/-- The event completes dummy byte 100 (R201). -/
def cmd0Due (s : State) : Bool :=
  s.phase == .powerOnClock && s.mode == .idle && !decide (s.step < powerOnDummyBytes)

/-- CMD0 (R174, R201); the received byte is ignored. -/
def execCmd0 (s : State) : Result := handOver (cmd0Due s) idleTx s

/-- CMD8 (R175): AwaitReset receives `0x01` (R202). -/
def execCmd8 (s : State) : Result := handOver (s.phase == .awaitReset) 0x01 s

/-- The fifth echo byte is awaited (R203). -/
def echoLastDue (s : State) : Bool :=
  s.phase == .awaitInterfaceCheck && s.mode == .idle && s.step == 4

/-- CMD1 (R176): AwaitInterfaceCheck receives the last echo byte (R203), or AwaitReady `0x01` (R204). -/
def execCmd1 (s : State) : Result :=
  if s.phase = .awaitInterfaceCheck then handOver (echoLastDue s) 0xAA s
  else handOver (s.phase == .awaitReady) 0x01 s

/-- CMD16 (R177): AwaitReady receives `0x00` (R204). -/
def execCmd16 (s : State) : Result := handOver (s.phase == .awaitReady) 0x00 s

/-- CMD17 (R178): AwaitBlockLenAck receives `0x00` (R205). -/
def execCmd17 (s : State) : Result := handOver (s.phase == .awaitBlockLenAck) 0x00 s

/-- The second status byte of a metadata block is awaited (R261). -/
def superStatusDue (s : State) : Bool :=
  s.phase == .awaitStatus && s.mode == .idle && s.step != 0 && s.variant == .super

/-- CMD24 (R179): the WriteDecision of `request_write(1)` in Ready (R149, R252), or the one that follows a
metadata block (R261). `addr` is the address the decision issues; at any other address, a misaligned
one among them, the block hands no CMD24 over (R79) and the row is refused: the model's choice, log
entry 26. -/
def execCmd24 (addr : Word) (s : State) : Result :=
  if s.started = false then .refused .beforeInitialize
  else if s.isReady then
    if addr = writeAddress s then .next (writeDecision s) else .refused .unitNotDue
  else handOver (superStatusDue s && addr == s.cursor) 0x00 s

/-- The busy poll runs (R259). -/
def busyPollDue (s : State) : Bool :=
  s.phase == .awaitWriteBusy && s.mode == .idle && s.step != 0

/-- CMD13 (R180): the busy poll ends (R259); any byte but `0xFF` ends it, and it is recorded nowhere. -/
def execCmd13 (s : State) : Result := handOver (busyPollDue s) 0x00 s

/-- The acknowledgement of CMD24 is awaited (R253). -/
def writeAckDue (s : State) : Bool :=
  s.phase == .writing && (s.mode == .awaitingResponse || s.step == 0)

/-- DATA_TOKEN_OUT (R253): Writing receives `0x00`. -/
def execDataTokenOut (s : State) : Result := handOver (writeAckDue s) 0x00 s

/-- The received byte of an event that hands the idle byte over in mode Idle, `none` where the phase
has something of its own to send (R111): between response bytes the byte the phase accepts, where the
byte is ignored or a marker `0xFF`. -/
def idleByteOfPhase (s : State) : Option Byte :=
  match s.phase with
  | .powerOnClock => if s.step < powerOnDummyBytes then some 0xFF else none
  | .awaitReset => none
  | .awaitInterfaceCheck => if s.step < 4 then echoBytes[s.step.toNat]? else none
  | .awaitReady => none
  | .awaitBlockLenAck => none
  | .awaitReadAck => some 0x00
  | .awaitDataToken => if s.waitCount < dataTokenWaitMax then some 0xFF else some dataToken
  | .readMetadataBlock => if s.step + 1 = readPacketLen then none else some 0xFF
  | .ready => none
  | .writing => if 130 < s.step then some 0xFF else none
  | .awaitWriteBusy => if s.step = 0 then some 0x05 else some 0xFF
  | .awaitStatus => if s.step = 0 then some 0x00 else none
  | .deselectIdle => none
  | .fault => none

/-- The received byte of an event that hands the idle byte over (R111): the completion of a frame
(R172), the wait for a response (R146), or the phase's. -/
def idleByte (s : State) : Option Byte :=
  match s.mode with
  | .sendingCommand => if s.step < 6 then none else some 0xFF
  | .awaitingResponse => some 0xFF
  | .idle => idleByteOfPhase s

/-- IDLE_OUT (R111): the completion event in which the block has nothing of its own to send. -/
def execIdleOut (s : State) : Result :=
  match idleByte s with
  | none => handOver false 0xFF s
  | some rx => byteEvent rx s

/-- The payload source answers these bytes, then whatever it would have answered (R110, R147). -/
def withAnswers (bytes : List Byte) (s : State) : State :=
  { s with payload := bytes.map (fun b => ⟨true, b⟩) ++ s.payload }

/-- The 131 exchanges of a write packet whose token is in flight; the received bytes are ignored, so
any will do (R118, R254). -/
def streamPacket (s : State) : Result := byteEvents (List.replicate 131 idleTx) s

/-- The token of a write packet is in flight (R35, R253). -/
def packetDue (s : State) : Bool := s.phase == .writing && s.mode == .idle && s.step == 1

/-- DATA_PACKET_OUT (R108, R254): the packet with this payload. In the data variant the payload is
what the source answers (R110); in the super variant it is the metadata payload and no other (R109). -/
def execDataPacketOut (payload : List Byte) (s : State) : Result :=
  if s.started = true ∧ s.inFlight = true ∧ packetDue s = true then
    match s.variant with
    | .data => streamPacket (withAnswers payload s)
    | .super => if payload = superPayload s.cursor then streamPacket s else .refused .unitNotDue
  else handOver false idleTx s

end Sys2Proof.Machine
end

