-- ==== Sys2Proof/Machine/Dispatch.lean ====
section
/-! DEFINITION. The dispatch of an instruction to its meaning: one arm per row of the opcode table. -/

namespace Sys2Proof.Machine

def exec (i : Instr) (s : State) : Host.Outcome State Fault Refusal :=
  match i with
  | .cmd0 => Sys2Proof.Machine.execCmd0 s
  | .cmd8 => Sys2Proof.Machine.execCmd8 s
  | .cmd1 => Sys2Proof.Machine.execCmd1 s
  | .cmd16 => Sys2Proof.Machine.execCmd16 s
  | .cmd17 => Sys2Proof.Machine.execCmd17 s
  | .cmd24 addr => Sys2Proof.Machine.execCmd24 addr s
  | .cmd13 => Sys2Proof.Machine.execCmd13 s
  | .dataTokenOut => Sys2Proof.Machine.execDataTokenOut s
  | .dataPacketOut payload => Sys2Proof.Machine.execDataPacketOut payload s
  | .idleOut => Sys2Proof.Machine.execIdleOut s
  | .r1Idle => Sys2Proof.Machine.execR1Idle s
  | .r1Ready => Sys2Proof.Machine.execR1Ready s
  | .cmd8Echo => Sys2Proof.Machine.execCmd8Echo s
  | .cmd13Status => Sys2Proof.Machine.execCmd13Status s
  | .readTokenIn => Sys2Proof.Machine.execReadTokenIn s
  | .tokenWaitIn => Sys2Proof.Machine.execTokenWaitIn s
  | .readPacketIn bytes => Sys2Proof.Machine.execReadPacketIn bytes s
  | .dataAcceptIn high => Sys2Proof.Machine.execDataAcceptIn high s
  | .busyIn => Sys2Proof.Machine.execBusyIn s
  | .responseWaitIn => Sys2Proof.Machine.execResponseWaitIn s
  | .initializeOp => Sys2Proof.Machine.execInitialize s
  | .onByteTransferred rx => Sys2Proof.Machine.execOnByteTransferred rx s
  | .requestWrite available => Sys2Proof.Machine.execRequestWrite available s

end Sys2Proof.Machine
end

