-- ==== Sys2Proof/WellFormed.lean ====
section
/-! DEFINITION. Which instruction terms are well formed: the packet rows carry exactly the bytes their formats have. -/

namespace Sys2Proof

/-- A write packet carries 128 payload bytes (R108) and a read packet is 130 bytes (R114); every
other row's operands are well formed at every value. -/
def Instr.wf : Instr → Bool
  | .cmd0 => true
  | .cmd8 => true
  | .cmd1 => true
  | .cmd16 => true
  | .cmd17 => true
  | .cmd24 _ => true
  | .cmd13 => true
  | .dataTokenOut => true
  | .dataPacketOut payload => payload.length == 128
  | .idleOut => true
  | .r1Idle => true
  | .r1Ready => true
  | .cmd8Echo => true
  | .cmd13Status => true
  | .readTokenIn => true
  | .tokenWaitIn => true
  | .readPacketIn bytes => bytes.length == 130
  | .dataAcceptIn _ => true
  | .busyIn => true
  | .responseWaitIn => true
  | .initializeOp => true
  | .onByteTransferred _ => true
  | .requestWrite _ => true

end Sys2Proof
end

