-- ==== Sys2Proof/Decode.lean ====
section
/-! DEFINITION. The decoder, total on any script operation and any bytes, and the encoder written from the same tables (30_encoding.md). -/

namespace Sys2Proof

/-- What a decode answers: an instruction, or the reason there is none. -/
abbrev Decoded := Except DecodeError Instr

namespace Position

/-- The block waits for the data token (R207). -/
def awaitsToken (p : Position) : Bool := p.phase == .awaitDataToken && p.mode == .idle

/-- The block polls the device's busy marker (R259). -/
def pollsBusy (p : Position) : Bool :=
  p.phase == .awaitWriteBusy && p.mode == .idle && p.step != 0

/-- The block waits for the first byte of a response (R146). -/
def awaitsResponse (p : Position) : Bool := p.mode == .awaitingResponse

/-- The position after reset (R50): PowerOnClock, mode Idle, dummy byte 1 handed over. -/
def afterReset : Position := ⟨.powerOnClock, .idle, 1⟩

end Position

/-- A one-byte unit. Rows of the table share the words `0xFE` and `0xFF`; which row such a word is
depends on the position, for "The phase decides it" (R117). Where no inbound row applies, the word
is the outbound one. -/
def decodeByte (p : Position) (b : Byte) : Decoded :=
  if b = 0x00 then .ok .r1Ready
  else if b = 0x01 then .ok .r1Idle
  else if b = 0xFE then
    if p.awaitsToken then .ok .readTokenIn else .ok .dataTokenOut
  else if b = 0xFF then
    if p.awaitsResponse then .ok .responseWaitIn
    else if p.awaitsToken then .ok .tokenWaitIn
    else if p.pollsBusy then .ok .busyIn
    else .ok .idleOut
  else if b.extractLsb' 0 4 = 0x5 then .ok (.dataAcceptIn (b.extractLsb' 4 4))
  else .error .noSuchByte

/-- A six-byte unit: exactly the seven frames of R106, every other frame is rejected (R107). -/
def decodeFrame (b0 b1 b2 b3 b4 b5 : Byte) : Decoded :=
  if b0 = 0x58 ∧ b5 = 0x00 then .ok (.cmd24 (Machine.be32 b1 b2 b3 b4))
  else if [b0, b1, b2, b3, b4, b5] = [0x40, 0x00, 0x00, 0x00, 0x00, 0x95] then .ok .cmd0
  else if [b0, b1, b2, b3, b4, b5] = [0x48, 0x00, 0x00, 0x01, 0xAA, 0x87] then .ok .cmd8
  else if [b0, b1, b2, b3, b4, b5] = [0x41, 0x00, 0x00, 0x00, 0x00, 0x00] then .ok .cmd1
  else if [b0, b1, b2, b3, b4, b5] = [0x50, 0x00, 0x00, 0x00, 0x80, 0x00] then .ok .cmd16
  else if [b0, b1, b2, b3, b4, b5] = [0x51, 0x00, 0x00, 0x00, 0x00, 0x00] then .ok .cmd17
  else if [b0, b1, b2, b3, b4, b5] = [0x4D, 0x00, 0x00, 0x00, 0x00, 0x00] then .ok .cmd13
  else .error .noSuchFrame

/-- A 131-byte unit: token, payload, two filler bytes (R108). -/
def decodePacket (bytes : List Byte) : Decoded :=
  if bytes.head? = some Machine.dataToken then
    if bytes.drop 129 = [Config.fillerByte, Config.fillerByte] then
      .ok (.dataPacketOut ((bytes.drop 1).take 128))
    else .error .notPacket
  else .error .notPacket

/-- A unit of the bus protocol, by its length (R117) and its bytes. -/
def decodeWire (p : Position) (bytes : List Byte) : Decoded :=
  match bytes with
  | [b] => decodeByte p b
  | [b0, b1] => if [b0, b1] = [0x00, 0x00] then .ok .cmd13Status else .error .notStatus
  | [b0, b1, b2, b3, b4] =>
    if [b0, b1, b2, b3, b4] = Machine.echoBytes then .ok .cmd8Echo else .error .notEcho
  | [b0, b1, b2, b3, b4, b5] => decodeFrame b0 b1 b2 b3 b4 b5
  | bytes =>
    if bytes.length = 130 then .ok (.readPacketIn bytes)
    else if bytes.length = 131 then decodePacket bytes
    else .error .noSuchLength

/-- The instruction a script operation stands for at a position. Host operations have no bit
encoding (R121): their script line is their code (R120). A `pay` line stands for none. -/
def decode (p : Position) (op : ScriptOp) : Decoded :=
  match op with
  | .init => .ok .initializeOp
  | .ev rx => .ok (.onByteTransferred rx)
  | .rw available => .ok (.requestWrite available)
  | .pay _ => .error .payloadLine
  | .wire bytes => decodeWire p bytes

/-- The bytes of the write packet with this payload (R108). -/
def packetBytes (payload : List Byte) : List Byte :=
  Machine.dataToken :: (payload ++ [Config.fillerByte, Config.fillerByte])

/-- The script operation that stands for an instruction: the frame of R106, the packet of R108,
the pattern of R113 to R116, or the script line of R120. -/
def encode : Instr → ScriptOp
  | .cmd0 => .wire (Machine.frameBytes 0 0x00000000)
  | .cmd8 => .wire (Machine.frameBytes 8 0x000001AA)
  | .cmd1 => .wire (Machine.frameBytes 1 0x00000000)
  | .cmd16 => .wire (Machine.frameBytes 16 0x00000080)
  | .cmd17 => .wire (Machine.frameBytes 17 0x00000000)
  | .cmd24 addr => .wire (Machine.frameBytes 24 addr)
  | .cmd13 => .wire (Machine.frameBytes 13 0x00000000)
  | .dataTokenOut => .wire [Machine.dataToken]
  | .dataPacketOut payload => .wire (packetBytes payload)
  | .idleOut => .wire [Machine.idleTx]
  | .r1Idle => .wire [0x01]
  | .r1Ready => .wire [0x00]
  | .cmd8Echo => .wire Machine.echoBytes
  | .cmd13Status => .wire [0x00, 0x00]
  | .readTokenIn => .wire [0xFE]
  | .tokenWaitIn => .wire [0xFF]
  | .readPacketIn bytes => .wire bytes
  | .dataAcceptIn high => .wire [high ++ (0x5 : BitVec 4)]
  | .busyIn => .wire [0xFF]
  | .responseWaitIn => .wire [0xFF]
  | .initializeOp => .init
  | .onByteTransferred rx => .ev rx
  | .requestWrite available => .rw available

/-- The positions at which an instruction's code is read as that instruction: all of them, but for
the rows that share a word with another row (R117). -/
def readableAt (i : Instr) (p : Position) : Bool :=
  match i with
  | .dataTokenOut => !p.awaitsToken
  | .readTokenIn => p.awaitsToken
  | .idleOut => !p.awaitsResponse && !p.awaitsToken && !p.pollsBusy
  | .responseWaitIn => p.awaitsResponse
  | .tokenWaitIn => p.awaitsToken
  | .busyIn => p.pollsBusy
  | .cmd0 => true
  | .cmd8 => true
  | .cmd1 => true
  | .cmd16 => true
  | .cmd17 => true
  | .cmd24 _ => true
  | .cmd13 => true
  | .dataPacketOut _ => true
  | .r1Idle => true
  | .r1Ready => true
  | .cmd8Echo => true
  | .cmd13Status => true
  | .readPacketIn _ => true
  | .dataAcceptIn _ => true
  | .initializeOp => true
  | .onByteTransferred _ => true
  | .requestWrite _ => true

/-- How many bytes the code of a row has on the bus (R100, R108, R117); host operations have none (R121). -/
def wireLength : Instr → Option Nat
  | .cmd0 => some 6
  | .cmd8 => some 6
  | .cmd1 => some 6
  | .cmd16 => some 6
  | .cmd17 => some 6
  | .cmd24 _ => some 6
  | .cmd13 => some 6
  | .dataTokenOut => some 1
  | .dataPacketOut _ => some 131
  | .idleOut => some 1
  | .r1Idle => some 1
  | .r1Ready => some 1
  | .cmd8Echo => some 5
  | .cmd13Status => some 2
  | .readTokenIn => some 1
  | .tokenWaitIn => some 1
  | .readPacketIn _ => some 130
  | .dataAcceptIn _ => some 1
  | .busyIn => some 1
  | .responseWaitIn => some 1
  | .initializeOp => none
  | .onByteTransferred _ => none
  | .requestWrite _ => none

/-- The instruction the decoder reads, at the position after reset, from a unit whose bits are `w`
numbered as the opcode table numbers them. -/
def decodeTableWord (nbits w : Nat) : Option Instr :=
  match decode Position.afterReset (.wire (Machine.bytesOfWord (nbits / 8) w)) with
  | .ok i => some i
  | .error _ => none

end Sys2Proof
end

