-- ==== Sys2Proof/Machine/Fetch.lean ====
section
/-! DEFINITION. Where the next instruction comes from: the script's next operation, read at the sequencer's position. -/

namespace Sys2Proof.Machine

/-- What a byte on the bus is read by (R30, R117). -/
def State.position (s : State) : Position := ⟨s.phase, s.mode, s.step⟩

/-- The state once its next operation is taken from the script: what earlier steps reported is gone. -/
def State.taking (s : State) (rest : List ScriptOp) : State :=
  { s with script := rest, outs := [], raised := [] }

/-- The payload source loads the answers of a `pay` line behind those still to come (R120, R147). -/
def State.supplied (s : State) (answers : List PayloadAnswer) : State :=
  { s with payload := s.payload ++ answers }

/-- `s` at a position of the sequencer, with an exchange in flight. -/
def State.placed (s : State) (phase : Phase) (mode : Mode) (step : Byte) : State :=
  { s with phase := phase, mode := mode, step := step, inFlight := true, started := true }

/-- `s` where the block hands the unit over (R30: the position plays the part of a program counter).
Inbound units and host operations need no position of their own. -/
def State.whereDue (s : State) (i : Instr) : State :=
  match i with
  | .cmd0 => s.placed .powerOnClock .idle powerOnDummyBytes
  | .cmd8 => s.placed .awaitReset .awaitingResponse 0
  | .cmd1 => s.placed .awaitReady .awaitingResponse 0
  | .cmd16 => s.placed .awaitReady .awaitingResponse 0
  | .cmd17 => s.placed .awaitBlockLenAck .awaitingResponse 0
  | .cmd24 addr =>
    { s.placed .ready .idle 0 with inFlight := false, cursor := addr, superDone := addr != 0 }
  | .cmd13 => s.placed .awaitWriteBusy .idle 1
  | .dataTokenOut => s.placed .writing .awaitingResponse 0
  | .dataPacketOut _ => { s.placed .writing .idle 1 with variant := .data }
  | .idleOut => s.placed .powerOnClock .idle 1
  | .r1Idle => s
  | .r1Ready => s
  | .cmd8Echo => s
  | .cmd13Status => s
  | .readTokenIn => s
  | .tokenWaitIn => s
  | .readPacketIn _ => s
  | .dataAcceptIn _ => s
  | .busyIn => s
  | .responseWaitIn => s
  | .initializeOp => s
  | .onByteTransferred _ => s
  | .requestWrite _ => s

/-- The position for the unit whose bits are `w`; a word that is no row needs none. -/
def State.whereWordDue (s : State) (nbits w : Nat) : State :=
  match decodeTableWord nbits w with
  | none => s
  | some i => s.whereDue i

/-- The script operation for a unit whose bits are `w`, numbered as the opcode table numbers them. -/
def scriptOfWord (nbits w : Nat) : ScriptOp := .wire (bytesOfWord (nbits / 8) w)

end Sys2Proof.Machine
end

