-- ==== Sys2Proof/Machine/Step.lean ====
section
/-! DEFINITION. One step: take the next line from the script, decode it at the sequencer's position, run it. -/

namespace Sys2Proof.Machine

/-- One step is one line of the script (R7, R120): a `pay` line loads the payload source, every other
line is an operation of the block. -/
def step (s : State) : Host.Outcome State Fault Refusal :=
  match s.script with
  | [] => .refused .scriptEnded
  | .pay answers :: rest => .next ((s.taking rest).supplied answers)
  | op :: rest =>
    match decode s.position op with
    | .error reason => .refused (.undecodable reason)
    | .ok i => exec i (s.taking rest)

/-- `s` with the unit whose bits are `w` as the next line of its script, and an outbound unit's
position, which is where the block hands that unit over. -/
def State.withFetchWord (s : State) (nbits w : Nat) : State :=
  { s.whereWordDue nbits w with script := scriptOfWord nbits w :: s.script }

end Sys2Proof.Machine
end

