-- ==== Sys2Proof/Safety.lean ====
section
/-! DEFINITION. What counts as a safe run: the invariants of 10_state.md over the registers, the invariant of the device's side, what taking a fault leaves, and the table of faults (R302). -/

namespace Sys2Proof

/-- A phase that may be held at the end of a step (R32, R49). -/
def Phase.held : Phase → Bool
  | .deselectIdle => false
  | .fault => false
  | .powerOnClock => true
  | .awaitReset => true
  | .awaitInterfaceCheck => true
  | .awaitReady => true
  | .awaitBlockLenAck => true
  | .awaitReadAck => true
  | .awaitDataToken => true
  | .readMetadataBlock => true
  | .ready => true
  | .writing => true
  | .awaitWriteBusy => true
  | .awaitStatus => true

/-- A phase entered by issuing a command (R113). -/
def Phase.awaitsCommand : Phase → Bool
  | .awaitReset => true
  | .awaitInterfaceCheck => true
  | .awaitReady => true
  | .awaitBlockLenAck => true
  | .awaitReadAck => true
  | .writing => true
  | .awaitStatus => true
  | .powerOnClock => false
  | .awaitDataToken => false
  | .readMetadataBlock => false
  | .ready => false
  | .awaitWriteBusy => false
  | .deselectIdle => false
  | .fault => false

/-- Phases 10 to 12: a block write is under way (R33). -/
def Phase.isWrite : Phase → Bool
  | .writing => true
  | .awaitWriteBusy => true
  | .awaitStatus => true
  | .powerOnClock => false
  | .awaitReset => false
  | .awaitInterfaceCheck => false
  | .awaitReady => false
  | .awaitBlockLenAck => false
  | .awaitReadAck => false
  | .awaitDataToken => false
  | .readMetadataBlock => false
  | .ready => false
  | .deselectIdle => false
  | .fault => false

/-- Phases 1 to 8: bring-up (R19). -/
def Phase.isBringUp : Phase → Bool
  | .powerOnClock => true
  | .awaitReset => true
  | .awaitInterfaceCheck => true
  | .awaitReady => true
  | .awaitBlockLenAck => true
  | .awaitReadAck => true
  | .awaitDataToken => true
  | .readMetadataBlock => true
  | .ready => false
  | .writing => false
  | .awaitWriteBusy => false
  | .awaitStatus => false
  | .deselectIdle => false
  | .fault => false

/-- A script line of the host, the device or the payload source (R120): one operation, not a unit of
several events. -/
def ScriptOp.isHostOrDevice : ScriptOp → Bool
  | .init => true
  | .ev _ => true
  | .rw _ => true
  | .pay _ => true
  | .wire _ => false

namespace Machine

/-- The values `s.step` may hold in mode Idle, by phase (R35). -/
def idleStepRange (p : Phase) (step : Byte) : Prop :=
  match p with
  | .powerOnClock => 1 ≤ step ∧ step ≤ 100
  | .awaitInterfaceCheck => 1 ≤ step ∧ step ≤ 4
  | .awaitDataToken => step = 0
  | .readMetadataBlock => step ≤ 129
  | .ready => step = 0
  | .writing => 1 ≤ step ∧ step ≤ 131
  | .awaitWriteBusy => step ≤ 1
  | .awaitStatus => step = 1
  | .awaitReset => False
  | .awaitReady => False
  | .awaitBlockLenAck => False
  | .awaitReadAck => False
  | .deselectIdle => False
  | .fault => False

/-- The invariant of the registers at the end of a step. -/
structure RegistersOk (s : State) : Prop where
  /-- `initialize` has been called (R51). -/
  started : s.started = true
  /-- No transient phase is held (R47, R49). -/
  held : s.phase.held = true
  /-- While a frame is sent, `1 <= s.step <= 6` (R35, R47), in a phase that awaits a command. -/
  sending : s.mode = .sendingCommand → 1 ≤ s.step ∧ s.step ≤ 6 ∧ s.phase.awaitsCommand = true
  /-- The frame bytes already handed over are `0x00` (R173). -/
  sent : s.mode = .sendingCommand → ∀ k, k < s.step.toNat → s.frame.get k = 0
  /-- Outside mode SendingCommand every frame byte reads `0x00` (R37). -/
  quiet : s.mode ≠ .sendingCommand → s.frame = Frame.zero
  /-- While a response is awaited `s.step` is 0 (R35), in a phase that awaits a command. -/
  awaiting : s.mode = .awaitingResponse → s.step = 0 ∧ s.phase.awaitsCommand = true
  /-- In mode Idle `s.step` is in the range of its phase (R35). -/
  idle : s.mode = .idle → idleStepRange s.phase s.step
  /-- The block is paused exactly in Ready (R47, R250). -/
  paused : s.inFlight = false ↔ s.phase = .ready
  /-- In phases 1 to 9 the variant is data (R33). -/
  variant : s.phase.isWrite = false → s.variant = .data
  /-- The device is deselected throughout PowerOnClock (R201). -/
  deselected : s.phase = .powerOnClock → s.selected = false
  /-- The device is selected from the reset command on, but for Ready (R151, R201, R252). -/
  selected : s.phase ≠ .powerOnClock → s.phase ≠ .ready → s.selected = true
  /-- Up to 250 token waits are tolerated (R207). -/
  waits : s.waitCount ≤ 250
  /-- In phases 9 to 12 the cursor is a multiple of 128 (R48). -/
  aligned : (s.phase = .ready ∨ s.phase.isWrite = true) → s.cursor &&& 0x7F = 0
  /-- The super variant is taken at a region start only (R252, R255). -/
  regionStart : s.variant = .super → s.cursor &&& 0x3FFFF = 0
  /-- `s.super_done`, set and cleared within one step, is 0 at its end (R252, R261). -/
  superDone : s.superDone = false

/-- How many payload bytes of the write under way have been handed over (R254). -/
def payloadSent (s : State) : Nat :=
  match s.phase, s.mode with
  | .writing, .idle => min (s.step.toNat - 1) 128
  | .writing, _ => 0
  | _, _ => 128

/-- The invariant of the device's side of a block write (R76, R109, R179): the write under way is at
the address of the last CMD24, holds the payload handed over so far, and once the busy poll has ended
the device's block reads as that payload. -/
structure DeviceOk (s : State) : Prop where
  /-- No write is under way outside phases 10 to 12. -/
  none : s.phase.isWrite = false → s.pending = Option.none
  /-- In phases 10 to 12 one is. -/
  some : s.phase.isWrite = true → ∃ w, s.pending = Option.some w ∧ w.data.length = payloadSent s
  /-- The metadata block is written at address 0 (R179). -/
  superAddr : ∀ w, s.pending = Option.some w → s.variant = .super → w.addr = 0
  /-- A data block is written at the cursor before its advance (R179). -/
  dataAddr : ∀ w, s.pending = Option.some w → s.variant = .data → w.addr + 128 = s.cursor
  /-- The metadata payload is the cursor three times, then zeros (R109). -/
  superData : ∀ w, s.pending = Option.some w → s.variant = .super →
    w.data = (superPayload s.cursor).take w.data.length
  /-- A write whose busy poll has ended is on the device (R76). -/
  written : ∀ w, s.pending = Option.some w → s.phase = .awaitStatus →
    s.mem.readBlock w.addr 128 = w.data.map Option.some

/-- The registers at the values of R50, which `initialize` and Fault both leave. -/
structure ResetRegisters (t : State) : Prop where
  phase : t.phase = .powerOnClock
  variant : t.variant = .data
  mode : t.mode = .idle
  step : t.step = 1
  waitCount : t.waitCount = 0
  frame : t.frame = ⟨0, 0, 0, 0, 0, 0⟩
  cursor : t.cursor = 0
  cursorAlt : t.cursorAlt = 0
  metaC : t.metaC = 0
  superDone : t.superDone = false
  selected : t.selected = false
  inFlight : t.inFlight = true

/-- Address `a` is one of the 128 bytes of the block at `base`, modulo 2^32 (R76, R78). -/
def inBlock (base : Word) (a : Nat) : Prop := ∃ k, k < 128 ∧ a = (base + BitVec.ofNat 32 k).toNat

/-- What going back to PowerOnClock leaves on the device: nothing changes but the block whose write
was under way, of which nothing is known any more (R304, U-13). -/
structure WriteAbandoned (s t : State) : Prop where
  pending : t.pending = none
  whole : s.pending = none → t.mem = s.mem
  outside : ∀ w, s.pending = some w → ∀ a, ¬ inBlock w.addr a → t.mem.read a = s.mem.read a
  forgotten : s.mem.wf = true → ∀ w, s.pending = some w → ∀ a, inBlock w.addr a → t.mem.read a = none

/-- What `raise Fault(c)` leaves (R300 to R304): the registers of R50, dummy byte 1 handed over and
nothing else, the ports as they were. -/
structure FaultTaken (c : FaultClass) (s t : State) : Prop where
  registers : ResetRegisters t
  handedOver : t.outs = s.outs ++ [.transmit 0xFF]
  raised : t.raised = s.raised ++ [c]
  device : WriteAbandoned s t
  started : t.started = s.started
  script : t.script = s.script
  payload : t.payload = s.payload
  payloadCount : t.payloadCount = s.payloadCount

/-- The state after a frame with these bytes is issued and its byte 0 handed over (R170, R173): the
registers R170 names, and no other. -/
def State.frameIssued (s : State) (bytes : Frame) (next : Phase) : State :=
  { s with
    phase := next, mode := .sendingCommand, step := 1, frame := { bytes with b0 := 0 },
    inFlight := true, outs := s.outs ++ [.transmit bytes.b0] }

/-- The received byte of the event reaches the phase's handler: mode Idle (R148), or the first byte of
a response (R146). -/
def examines (s : State) (rx : Byte) : Prop :=
  s.mode = .idle ∨ s.mode = .awaitingResponse ∧ rx ≠ 0xFF

/-- The row of the table of R302 an event falls under: the phase, and the byte a handler examines
there (R143, R146). `none` where no rule raises Fault. -/
def raisedBy (s : State) (rx : Byte) : Option FaultClass :=
  let examined := s.mode = .idle ∨ s.mode = .awaitingResponse ∧ rx ≠ 0xFF
  let index : Nat := if s.mode = .idle then s.step.toNat else 0
  match s.phase with
  | .awaitReset => if examined ∧ rx ≠ 0x01 then some .bringupMismatch else none
  | .awaitInterfaceCheck =>
    if examined ∧ some rx ≠ ([0x01, 0x00, 0x00, 0x01, 0xAA] : List Byte)[index]? then
      some .bringupMismatch
    else none
  | .awaitReady => if examined ∧ rx ≠ 0x00 ∧ rx ≠ 0x01 then some .bringupMismatch else none
  | .awaitBlockLenAck => if examined ∧ rx ≠ 0x00 then some .bringupMismatch else none
  | .awaitReadAck => if examined ∧ rx ≠ 0x00 then some .bringupMismatch else none
  | .awaitDataToken =>
    if rx ≠ 0xFE ∧ rx ≠ 0xFF then some .bringupMismatch
    else if rx = 0xFF ∧ s.waitCount = 250 then some .busTimeout
    else none
  | .writing => if examined ∧ index = 0 ∧ rx ≠ 0x00 then some .writeAckFailure else none
  | .awaitWriteBusy =>
    if index = 0 ∧ rx.extractLsb' 0 4 ≠ 0x5 then some .writeAckFailure else none
  | .awaitStatus => if examined ∧ rx ≠ 0x00 then some .writeAckFailure else none
  | .powerOnClock => none
  | .readMetadataBlock => none
  | .ready => none
  | .deselectIdle => none
  | .fault => none

end Machine

end Sys2Proof
end

