-- ==== Sys2Proof/Certificates/Slice0/Obligations.lean ====
section
/-! DEFINITION. The statements for the provers: what the rules of spec/ say the block does. -/

open Sys2Proof Sys2Proof.Machine

/-! ### Reset, initialize and the refused interactions -/

/-- R50, R330: the state after reset holds the values of the table of R50. -/
def Obligations.ResetHoldsTheTableValues : Prop := ResetRegisters State.reset

/-- R142, R336: `initialize` before first use or while paused leaves the registers of R50 and hands
over dummy byte 1; the ports and the device are as they were, but for a write under way, none of
whose 128 bytes is known any more (the model's reading of U-13, log entry 6). With an exchange in flight
it is refused. -/
def Obligations.InitializeResetsOrIsRefused : Prop :=
  ∀ s : State,
    (s.started = false ∨ s.inFlight = false →
      ∃ t, exec .initializeOp s = .next t ∧ ResetRegisters t ∧ t.started = true ∧
        t.outs = s.outs ++ [.transmit 0xFF] ∧ t.raised = s.raised ∧ WriteAbandoned s t ∧
        t.script = s.script ∧ t.payload = s.payload ∧ t.payloadCount = s.payloadCount) ∧
    (s.started = true → s.inFlight = true →
      exec .initializeOp s = .refused .exchangeInFlight)

/-- R51, R157: before the first `initialize` every well-formed row but `initialize` is refused.
The refusal is the spec's decision D24 (log entry 16). -/
def Obligations.BeforeInitializeAllElseIsRefused : Prop :=
  ∀ (s : State) (i : Instr), s.started = false → i.wf = true → i ≠ .initializeOp →
    exec i s = .refused .beforeInitialize

/-- R157, R251, R307, R314, R335: an event while nothing is in flight is refused, whatever the byte, and
so is every outbound unit that an event hands over, CMD24 outside Ready among them; in every state of
a run that is exactly an event in Ready.
The refusal is the spec's decision D26 (log entry 16); the outbound rows are log entry 4. -/
def Obligations.EventWithoutExchangeIsRefused : Prop :=
  ∀ (s : State) (rx : Byte) (a : Word) (p : List Byte), s.started = true → s.inFlight = false →
    exec (.onByteTransferred rx) s = .refused .noExchangeInFlight ∧
    exec .cmd0 s = .refused .noExchangeInFlight ∧ exec .cmd8 s = .refused .noExchangeInFlight ∧
    exec .cmd1 s = .refused .noExchangeInFlight ∧ exec .cmd16 s = .refused .noExchangeInFlight ∧
    exec .cmd17 s = .refused .noExchangeInFlight ∧ exec .cmd13 s = .refused .noExchangeInFlight ∧
    exec .dataTokenOut s = .refused .noExchangeInFlight ∧
    exec (.dataPacketOut p) s = .refused .noExchangeInFlight ∧
    exec .idleOut s = .refused .noExchangeInFlight ∧
    (s.phase ≠ .ready → exec (.cmd24 a) s = .refused .noExchangeInFlight) ∧
    (RegistersOk s → s.phase = .ready)

/-- R150, R333: a `request_write` outside Ready, or with an exchange in flight, answers `Rejected`
and writes nothing.
The rejection is the spec's decision D18; that it is a next state is log entry 15. -/
def Obligations.RequestWriteOutsideReadyIsRejected : Prop :=
  ∀ (s : State) (a : Bool), s.started = true → (s.phase ≠ .ready ∨ s.inFlight = true) →
    exec (.requestWrite a) s = .next { s with outs := s.outs ++ [.rejected] }

/-- R149, R252, R179: `request_write` in Ready. Not available: nothing but the pause. Available, mid-region
or right after the metadata block: CMD24 at the cursor, which advances by 128 modulo 2^32. Available at
a region start: CMD24 at block 0, the cursor as it was.
The select and the flag are the spec's decisions D17 and D19; the device's write under way is log entry 5. -/
def Obligations.RequestWriteInReady : Prop :=
  ∀ s : State, s.started = true → s.phase = .ready → s.inFlight = false →
    exec (.requestWrite false) s = .next { s with outs := s.outs ++ [.pause] } ∧
    (s.cursor &&& 0x3FFFF ≠ 0 ∨ s.superDone = true →
      exec (.requestWrite true) s = .next
        { s.frameIssued
            ⟨0x58, byteK 0 s.cursor, byteK 1 s.cursor, byteK 2 s.cursor, byteK 3 s.cursor, 0x00⟩
            .writing with
          selected := true, cursor := s.cursor + 128, superDone := false, variant := .data
          pending := some ⟨s.cursor, []⟩ }) ∧
    (s.cursor &&& 0x3FFFF = 0 → s.superDone = false →
      exec (.requestWrite true) s = .next
        { s.frameIssued ⟨0x58, 0, 0, 0, 0, 0x00⟩ .writing with
          selected := true, variant := .super, pending := some ⟨0, []⟩ })

/-! ### The command framer -/

/-- R172, R173, R144: in mode SendingCommand an event hands over the next frame byte and clears it;
the event after the trailer hands over `0xFF` and awaits the response. The received byte is ignored.
The idle byte and the ignored byte are the spec's decisions D4 and D6. -/
def Obligations.FrameIsSentByteByByte : Prop :=
  ∀ (s : State) (rx : Byte), s.started = true → s.inFlight = true → s.mode = .sendingCommand →
    (s.step < 6 →
      exec (.onByteTransferred rx) s = .next
        { s with
          frame := s.frame.clear s.step.toNat, step := s.step + 1
          outs := s.outs ++ [.transmit (s.frame.get s.step.toNat)] }) ∧
    (s.step = 6 →
      exec (.onByteTransferred rx) s = .next
        { s with mode := .awaitingResponse, step := 0, outs := s.outs ++ [.transmit 0xFF] })

/-- R170 to R173: once a frame is issued, its other five bytes go out in five events and the sixth
completes the trailer: six events, whatever they receive, and the frame is clear. -/
def Obligations.IssuedFrameReachesTheBusWhole : Prop :=
  ∀ (s : State) (f : Frame) (p : Phase) (ignored : List Byte),
    s.started = true → ignored.length = 6 →
    byteEvents ignored (s.frameIssued f p) = .next
      { s with
        phase := p, mode := .awaitingResponse, step := 0, frame := ⟨0, 0, 0, 0, 0, 0⟩
        inFlight := true
        outs := s.outs ++ [.transmit f.b0, .transmit f.b1, .transmit f.b2, .transmit f.b3,
          .transmit f.b4, .transmit f.b5, .transmit 0xFF] }

/-- R174 to R180, R201 to R205, R252, R259, R261: where its "Issued by" line puts it, each command
row is the block's own operation that builds its frame of R106, hands byte 0 over and moves to its
phase. CMD24 goes out at the address the WriteDecision gives and at no other, and opens the device's write
there; CMD13 goes out as the block under way is stored (R76).
The rows as script lines are log entry 4, the addresses log entry 26, the device's write log entry 5; the
arguments are the spec's decisions D8 and D9. -/
def Obligations.CommandRowsIssueTheirFrames : Prop :=
  ∀ s : State, s.started = true →
    (s.inFlight = true → s.phase = .powerOnClock → s.mode = .idle → 100 ≤ s.step →
      exec .cmd0 s = .next
        { s.frameIssued ⟨0x40, 0x00, 0x00, 0x00, 0x00, 0x95⟩ .awaitReset with selected := true }) ∧
    (s.inFlight = true → s.phase = .awaitReset → s.mode ≠ .sendingCommand →
      exec .cmd8 s = .next
        (s.frameIssued ⟨0x48, 0x00, 0x00, 0x01, 0xAA, 0x87⟩ .awaitInterfaceCheck)) ∧
    (s.inFlight = true →
      s.phase = .awaitInterfaceCheck ∧ s.mode = .idle ∧ s.step = 4 ∨
        s.phase = .awaitReady ∧ s.mode ≠ .sendingCommand →
      exec .cmd1 s = .next (s.frameIssued ⟨0x41, 0x00, 0x00, 0x00, 0x00, 0x00⟩ .awaitReady)) ∧
    (s.inFlight = true → s.phase = .awaitReady → s.mode ≠ .sendingCommand →
      exec .cmd16 s = .next
        (s.frameIssued ⟨0x50, 0x00, 0x00, 0x00, 0x80, 0x00⟩ .awaitBlockLenAck)) ∧
    (s.inFlight = true → s.phase = .awaitBlockLenAck → s.mode ≠ .sendingCommand →
      exec .cmd17 s = .next (s.frameIssued ⟨0x51, 0x00, 0x00, 0x00, 0x00, 0x00⟩ .awaitReadAck)) ∧
    (s.inFlight = true → s.phase = .awaitWriteBusy → s.mode = .idle → s.step ≠ 0 →
      ∃ m : Memory,
        exec .cmd13 s = .next
          { s.frameIssued ⟨0x4D, 0x00, 0x00, 0x00, 0x00, 0x00⟩ .awaitStatus with mem := m } ∧
        (s.pending = none → m = s.mem) ∧
        ∀ w, s.pending = some w → w.data.length = 128 →
          m.readBlock w.addr 128 = w.data.map some ∧
          ∀ a : Nat, ¬ inBlock w.addr a → m.read a = s.mem.read a) ∧
    (s.phase = .ready → s.inFlight = false →
      (s.cursor &&& 0x3FFFF ≠ 0 ∨ s.superDone = true →
        exec (.cmd24 s.cursor) s = .next
          { s.frameIssued
              ⟨0x58, byteK 0 s.cursor, byteK 1 s.cursor, byteK 2 s.cursor, byteK 3 s.cursor, 0x00⟩
              .writing with
            selected := true, cursor := s.cursor + 128, superDone := false, variant := .data
            pending := some ⟨s.cursor, []⟩ } ∧
        ∀ a, a ≠ s.cursor → exec (.cmd24 a) s = .refused .unitNotDue) ∧
      (s.cursor &&& 0x3FFFF = 0 → s.superDone = false →
        exec (.cmd24 0) s = .next
          { s.frameIssued ⟨0x58, 0, 0, 0, 0, 0x00⟩ .writing with
            selected := true, variant := .super, pending := some ⟨0, []⟩ } ∧
        ∀ a, a ≠ 0 → exec (.cmd24 a) s = .refused .unitNotDue)) ∧
    (s.inFlight = true → s.phase = .awaitStatus → s.mode = .idle → s.step ≠ 0 →
      s.variant = .super →
      exec (.cmd24 s.cursor) s = .next
        { s.frameIssued
            ⟨0x58, byteK 0 s.cursor, byteK 1 s.cursor, byteK 2 s.cursor, byteK 3 s.cursor, 0x00⟩
            .writing with
          selected := true, cursor := s.cursor + 128, superDone := false, variant := .data
          pending := some ⟨s.cursor, []⟩ } ∧
      ∀ a, a ≠ s.cursor → exec (.cmd24 a) s = .refused .unitNotDue)

/-- R181: while the bytes of a frame go out no other unit does, and while its response is awaited none
does but the one that the response leads to.
The refusals are the model's reading of it (log entries 4 and 9). -/
def Obligations.OneFrameOutstanding : Prop :=
  ∀ (s : State) (a : Word) (p : List Byte), s.started = true → s.inFlight = true →
    (s.mode = .sendingCommand →
      exec .cmd0 s = .refused .frameOutstanding ∧ exec .cmd8 s = .refused .frameOutstanding ∧
      exec .cmd1 s = .refused .frameOutstanding ∧ exec .cmd16 s = .refused .frameOutstanding ∧
      exec .cmd17 s = .refused .frameOutstanding ∧ exec (.cmd24 a) s = .refused .frameOutstanding ∧
      exec .cmd13 s = .refused .frameOutstanding ∧
      exec .dataTokenOut s = .refused .frameOutstanding ∧
      exec (.dataPacketOut p) s = .refused .frameOutstanding ∧
      (s.step < 6 → exec .idleOut s = .refused .frameOutstanding)) ∧
    (s.mode = .awaitingResponse →
      exec .cmd0 s = .refused .unitNotDue ∧ exec (.cmd24 a) s = .refused .unitNotDue ∧
      exec .cmd13 s = .refused .unitNotDue ∧ exec (.dataPacketOut p) s = .refused .unitNotDue ∧
      (s.phase ≠ .awaitReset → exec .cmd8 s = .refused .unitNotDue) ∧
      (s.phase ≠ .awaitReady →
        exec .cmd1 s = .refused .unitNotDue ∧ exec .cmd16 s = .refused .unitNotDue) ∧
      (s.phase ≠ .awaitBlockLenAck → exec .cmd17 s = .refused .unitNotDue) ∧
      (s.phase ≠ .writing → exec .dataTokenOut s = .refused .unitNotDue))

/-- R111, R172, R201, R207, R253: the idle byte goes out in the events in which the block has nothing of
its own to send, and the data token in the event of the acknowledgement. The idle byte changes nothing
in the wait for a response and in the busy poll, counts a dummy byte or a token wait, and completes a
frame; in a run it goes out wherever an event can hand it over without a fault, the write packet apart,
and nowhere else.
The rows as script lines, with the byte each receives, are log entry 4. -/
def Obligations.IdleAndTokenBytesGoOut : Prop :=
  ∀ s : State, s.started = true → s.inFlight = true →
    (s.mode = .awaitingResponse ∨ s.phase = .awaitWriteBusy ∧ s.mode = .idle ∧ s.step ≠ 0 →
      exec .idleOut s = .next { s with outs := s.outs ++ [.transmit 0xFF] }) ∧
    (s.mode = .sendingCommand → s.step = 6 →
      exec .idleOut s = .next
        { s with mode := .awaitingResponse, step := 0, outs := s.outs ++ [.transmit 0xFF] }) ∧
    (s.mode = .sendingCommand → s.step < 6 → exec .idleOut s = .refused .frameOutstanding) ∧
    (s.phase = .powerOnClock → s.mode = .idle → s.step < 100 →
      exec .idleOut s = .next { s with step := s.step + 1, outs := s.outs ++ [.transmit 0xFF] }) ∧
    (s.phase = .powerOnClock → s.mode = .idle → 100 ≤ s.step →
      exec .idleOut s = .refused .unitNotDue) ∧
    (s.phase = .awaitDataToken → s.mode = .idle → s.waitCount < 250 →
      exec .idleOut s = .next
        { s with waitCount := s.waitCount + 1, outs := s.outs ++ [.transmit 0xFF] }) ∧
    (RegistersOk s → (s.phase = .writing → s.mode = .idle → s.step = 0 ∨ s.step = 131) →
      ((∃ rx u, exec (.onByteTransferred rx) s = .next u ∧
          u.outs = s.outs ++ [.transmit 0xFF] ∧ u.raised = s.raised ∧
          ¬ (s.mode = .sendingCommand ∧ s.step < 6)) ↔
        ∃ t, exec .idleOut s = .next t ∧ t.outs = s.outs ++ [.transmit 0xFF] ∧
          t.raised = s.raised)) ∧
    (s.phase = .writing → s.mode = .awaitingResponse ∨ s.mode = .idle ∧ s.step = 0 →
      exec .dataTokenOut s = .next
        { s with mode := .idle, step := 1, outs := s.outs ++ [.transmit 0xFE] }) ∧
    (s.mode = .idle → ¬ (s.phase = .writing ∧ s.step = 0) →
      exec .dataTokenOut s = .refused .unitNotDue)

/-! ### Waiting for a response, bring-up -/

/-- R146: before the first byte of a response `0xFF` is skipped and changes nothing.
The skip is the spec's decision D5. -/
def Obligations.ResponseWaitSkipsIdleBytes : Prop :=
  ∀ s : State, s.started = true → s.inFlight = true → s.mode = .awaitingResponse →
    exec .responseWaitIn s = .next { s with outs := s.outs ++ [.transmit 0xFF] } ∧
    exec (.onByteTransferred 0xFF) s = .next { s with outs := s.outs ++ [.transmit 0xFF] }

/-- R201: PowerOnClock counts dummy bytes to 100, then selects the device and issues CMD0; the received
byte is ignored. -/
def Obligations.PowerOnClockCountsDummyBytes : Prop :=
  ∀ (s : State) (rx : Byte), s.started = true → s.inFlight = true →
    s.phase = .powerOnClock → s.mode = .idle →
    (s.step < 100 →
      exec (.onByteTransferred rx) s = .next
        { s with step := s.step + 1, outs := s.outs ++ [.transmit 0xFF] }) ∧
    (100 ≤ s.step →
      exec (.onByteTransferred rx) s = .next
        { s.frameIssued ⟨0x40, 0x00, 0x00, 0x00, 0x00, 0x95⟩ .awaitReset with selected := true })

/-- R202: AwaitReset. -/
def Obligations.AwaitResetExpectsIdle : Prop :=
  ∀ (s : State) (rx : Byte), s.started = true → s.inFlight = true →
    s.phase = .awaitReset → examines s rx →
    (rx = 0x01 →
      exec (.onByteTransferred rx) s = .next
        (s.frameIssued ⟨0x48, 0x00, 0x00, 0x01, 0xAA, 0x87⟩ .awaitInterfaceCheck) ∧
      exec .r1Idle s = .next
        (s.frameIssued ⟨0x48, 0x00, 0x00, 0x01, 0xAA, 0x87⟩ .awaitInterfaceCheck)) ∧
    (rx ≠ 0x01 →
      ∃ t, exec (.onByteTransferred rx) s = .next t ∧ FaultTaken .bringupMismatch s t)

/-- R203: AwaitInterfaceCheck, byte `k` of the echo, `k` from 0 to 4. -/
def Obligations.InterfaceCheckComparesTheEcho : Prop :=
  ∀ (s : State) (rx : Byte) (k : Nat), s.started = true → s.inFlight = true →
    s.phase = .awaitInterfaceCheck → k < 5 →
    (s.mode = .idle ∧ s.step.toNat = k ∨ s.mode = .awaitingResponse ∧ rx ≠ 0xFF ∧ k = 0) →
    (([0x01, 0x00, 0x00, 0x01, 0xAA] : List Byte)[k]? ≠ some rx →
      ∃ t, exec (.onByteTransferred rx) s = .next t ∧ FaultTaken .bringupMismatch s t) ∧
    (([0x01, 0x00, 0x00, 0x01, 0xAA] : List Byte)[k]? = some rx → k < 4 →
      exec (.onByteTransferred rx) s = .next
        { s with
          mode := .idle, step := BitVec.ofNat 8 (k + 1), outs := s.outs ++ [.transmit 0xFF] }) ∧
    (([0x01, 0x00, 0x00, 0x01, 0xAA] : List Byte)[k]? = some rx → k = 4 →
      exec (.onByteTransferred rx) s = .next
        (s.frameIssued ⟨0x41, 0x00, 0x00, 0x00, 0x00, 0x00⟩ .awaitReady))

/-- R203, R176: the whole echo, from the wait for the response: four `0xFF`, then CMD1. -/
def Obligations.WholeEchoStartsInitialization : Prop :=
  ∀ s : State, s.started = true → s.inFlight = true →
    s.phase = .awaitInterfaceCheck → s.mode = .awaitingResponse →
    exec .cmd8Echo s = .next
      { s with
        phase := .awaitReady, mode := .sendingCommand, step := 1, frame := ⟨0, 0, 0, 0, 0, 0⟩
        outs := s.outs ++ [.transmit 0xFF, .transmit 0xFF, .transmit 0xFF, .transmit 0xFF,
          .transmit 0x41] }

/-- R204: AwaitReady: poll on `0x01`, go on on `0x00`, fault on anything else. -/
def Obligations.AwaitReadyPollsOrGoesOn : Prop :=
  ∀ (s : State) (rx : Byte), s.started = true → s.inFlight = true →
    s.phase = .awaitReady → examines s rx →
    (rx = 0x01 →
      exec (.onByteTransferred rx) s = .next
        (s.frameIssued ⟨0x41, 0x00, 0x00, 0x00, 0x00, 0x00⟩ .awaitReady) ∧
      exec .r1Idle s = .next
        (s.frameIssued ⟨0x41, 0x00, 0x00, 0x00, 0x00, 0x00⟩ .awaitReady)) ∧
    (rx = 0x00 →
      exec (.onByteTransferred rx) s = .next
        (s.frameIssued ⟨0x50, 0x00, 0x00, 0x00, 0x80, 0x00⟩ .awaitBlockLenAck) ∧
      exec .r1Ready s = .next
        (s.frameIssued ⟨0x50, 0x00, 0x00, 0x00, 0x80, 0x00⟩ .awaitBlockLenAck)) ∧
    (rx ≠ 0x01 → rx ≠ 0x00 →
      ∃ t, exec (.onByteTransferred rx) s = .next t ∧ FaultTaken .bringupMismatch s t)

/-- R205: AwaitBlockLenAck. -/
def Obligations.BlockLengthAckStartsTheRead : Prop :=
  ∀ (s : State) (rx : Byte), s.started = true → s.inFlight = true →
    s.phase = .awaitBlockLenAck → examines s rx →
    (rx = 0x00 →
      exec (.onByteTransferred rx) s = .next
        (s.frameIssued ⟨0x51, 0x00, 0x00, 0x00, 0x00, 0x00⟩ .awaitReadAck) ∧
      exec .r1Ready s = .next
        (s.frameIssued ⟨0x51, 0x00, 0x00, 0x00, 0x00, 0x00⟩ .awaitReadAck)) ∧
    (rx ≠ 0x00 →
      ∃ t, exec (.onByteTransferred rx) s = .next t ∧ FaultTaken .bringupMismatch s t)

/-- R206: AwaitReadAck: the passive wait for the token, from a count of 0. (The step counter is 0 there:
`ResponseWait` writes it, R146; in mode Idle it stays.) -/
def Obligations.ReadAckStartsTheTokenWait : Prop :=
  ∀ (s : State) (rx : Byte), s.started = true → s.inFlight = true →
    s.phase = .awaitReadAck → examines s rx →
    (rx = 0x00 →
      exec (.onByteTransferred rx) s = .next
        { s with
          phase := .awaitDataToken, mode := .idle, waitCount := 0
          step := if s.mode = .idle then s.step else 0
          outs := s.outs ++ [.transmit 0xFF] }) ∧
    (rx ≠ 0x00 →
      ∃ t, exec (.onByteTransferred rx) s = .next t ∧ FaultTaken .bringupMismatch s t)

/-- R207, R306: AwaitDataToken: the token, up to 250 waits, the 251st, any other byte. -/
def Obligations.DataTokenWaitIsBounded : Prop :=
  ∀ (s : State) (rx : Byte), s.started = true → s.inFlight = true →
    s.phase = .awaitDataToken → s.mode = .idle → s.waitCount ≤ 250 →
    (exec .readTokenIn s = .next
        { s with phase := .readMetadataBlock, step := 0, outs := s.outs ++ [.transmit 0xFF] } ∧
      exec (.onByteTransferred 0xFE) s = .next
        { s with phase := .readMetadataBlock, step := 0, outs := s.outs ++ [.transmit 0xFF] }) ∧
    (s.waitCount < 250 →
      exec .tokenWaitIn s = .next
        { s with waitCount := s.waitCount + 1, outs := s.outs ++ [.transmit 0xFF] } ∧
      exec (.onByteTransferred 0xFF) s = .next
        { s with waitCount := s.waitCount + 1, outs := s.outs ++ [.transmit 0xFF] }) ∧
    (s.waitCount = 250 →
      ∃ t, exec .tokenWaitIn s = .next t ∧ exec (.onByteTransferred 0xFF) s = .next t ∧
        FaultTaken .busTimeout s t) ∧
    (rx ≠ 0xFE → rx ≠ 0xFF →
      ∃ t, exec (.onByteTransferred rx) s = .next t ∧ FaultTaken .bringupMismatch s t)

/-! ### Metadata and position recovery -/

/-- R230, R231: one byte of the read packet, by its index `s.step`. The 130th ends the packet: the
recovered cursor, Ready, a pause, the device as selected as it was. -/
def Obligations.MetadataBytesAreCaptured : Prop :=
  ∀ (s : State) (rx : Byte), s.started = true → s.inFlight = true →
    s.phase = .readMetadataBlock → s.mode = .idle →
    (s.step < 129 →
      exec (.onByteTransferred rx) s = .next
        { s with
          cursor :=
            if s.step ≤ 3 then (s.cursor <<< (8 : Nat)) ||| rx.setWidth 32 else s.cursor
          cursorAlt :=
            if 4 ≤ s.step ∧ s.step ≤ 7 then (s.cursorAlt <<< (8 : Nat)) ||| rx.setWidth 32
            else s.cursorAlt
          metaC :=
            if 8 ≤ s.step ∧ s.step ≤ 11 then (s.metaC <<< (8 : Nat)) ||| rx.setWidth 32
            else s.metaC
          step := s.step + 1
          outs := s.outs ++ [.transmit 0xFF] }) ∧
    (s.step = 129 →
      exec (.onByteTransferred rx) s = .next
        { s with
          cursor := validate (recover s.cursor s.cursorAlt s.metaC)
          step := 0, phase := .ready, inFlight := false, outs := s.outs ++ [.pause] })

/-- R230, R231, R237, R13: a whole read packet, whatever the registers held: copies A, B and C are its
first 12 bytes in big-endian order, the other 118 bytes are ignored. -/
def Obligations.ReadPacketRecoversTheCursor : Prop :=
  ∀ (s : State) (a0 a1 a2 a3 b0 b1 b2 b3 c0 c1 c2 c3 : Byte) (rest : List Byte),
    s.started = true → s.inFlight = true → s.phase = .readMetadataBlock → s.mode = .idle →
    s.step = 0 → rest.length = 118 →
    exec (.readPacketIn ([a0, a1, a2, a3, b0, b1, b2, b3, c0, c1, c2, c3] ++ rest)) s = .next
      { s with
        cursor := validate (recover (be32 a0 a1 a2 a3) (be32 b0 b1 b2 b3) (be32 c0 c1 c2 c3))
        cursorAlt := be32 b0 b1 b2 b3
        metaC := be32 c0 c1 c2 c3
        step := 0, phase := .ready, inFlight := false
        outs := s.outs ++ List.replicate 129 (.transmit 0xFF) ++ [.pause] }

/-- R232, R233: `recover` gives the majority value whenever two copies agree, and A otherwise. -/
def Obligations.RecoverIsMajorityOrFirst : Prop :=
  ∀ a b c : Word,
    (a = b → recover a b c = a) ∧ (b = c → recover a b c = b) ∧ (a = c → recover a b c = a) ∧
    (a ≠ b → b ≠ c → a ≠ c → recover a b c = a)

/-- R235: `validate`; its result is always a multiple of `Q`, and 0 only in the wrap case. -/
def Obligations.ValidateAdvancesOneRegionOrRestarts : Prop :=
  ∀ v : Word,
    (v = 0 ∨ v &&& 0x3FFFF ≠ 0 → validate v = 0x00040000) ∧
    (v ≠ 0 → v &&& 0x3FFFF = 0 → validate v = v + 0x00040000) ∧
    (validate v).toNat % 0x40000 = 0 ∧ (validate v = 0 ↔ v = 0xFFFC0000)

/-- R234: no two of the three copies agree: no fault is raised, and copy A goes through `validate` like
any candidate.
The packet as one step is log entry 8; what is raised is read from the ghost of log entry 12. -/
def Obligations.DisagreeingCopiesAreNoFault : Prop :=
  ∀ (s : State) (a0 a1 a2 a3 b0 b1 b2 b3 c0 c1 c2 c3 : Byte) (rest : List Byte),
    s.started = true → s.inFlight = true → s.phase = .readMetadataBlock → s.mode = .idle →
    s.step = 0 → rest.length = 118 →
    copiesDisagree (be32 a0 a1 a2 a3) (be32 b0 b1 b2 b3) (be32 c0 c1 c2 c3) = true →
    ∃ t, exec (.readPacketIn ([a0, a1, a2, a3, b0, b1, b2, b3, c0, c1, c2, c3] ++ rest)) s = .next t ∧
      t.raised = s.raised ∧ t.cursor = validate (be32 a0 a1 a2 a3)

/-- R236: the corner cases of `validate`. -/
def Obligations.ValidateCornerCases : Prop :=
  validate 0 = 0x00040000 ∧ validate 0x00040080 = 0x00040000 ∧ validate 0xFFFC0000 = 0 ∧
  validate 0x00040000 = 0x00080000 ∧ (∀ v : Word, v &&& 0x3FFFF ≠ 0 → validate v = 0x00040000) ∧
  ∀ k : Nat, 1 ≤ k → k ≤ 16382 →
    validate (0x00040000 * BitVec.ofNat 32 k) = 0x00040000 * BitVec.ofNat 32 (k + 1)

/-! ### Block write -/

/-- R253: the acknowledgement of CMD24. -/
def Obligations.WriteAckSendsTheDataToken : Prop :=
  ∀ (s : State) (rx : Byte), s.started = true → s.inFlight = true → s.phase = .writing →
    (s.mode = .idle ∧ s.step = 0 ∨ s.mode = .awaitingResponse ∧ rx ≠ 0xFF) →
    (rx = 0x00 →
      exec (.onByteTransferred rx) s = .next
        { s with mode := .idle, step := 1, outs := s.outs ++ [.transmit 0xFE] } ∧
      exec .r1Ready s = .next
        { s with mode := .idle, step := 1, outs := s.outs ++ [.transmit 0xFE] }) ∧
    (rx ≠ 0x00 →
      ∃ t, exec (.onByteTransferred rx) s = .next t ∧ FaultTaken .writeAckFailure s t)

/-- R254, R255: one payload byte of the metadata block, `k` = `s.step` - 1 from 0 to 127.
The device's write under way is log entry 5. -/
def Obligations.SuperPayloadByteGoesOut : Prop :=
  ∀ (s : State) (rx : Byte) (k : Nat), s.started = true → s.inFlight = true →
    s.phase = .writing → s.mode = .idle → s.variant = .super → k < 128 →
    s.step = BitVec.ofNat 8 (k + 1) →
    exec (.onByteTransferred rx) s = .next
      { s with
        step := s.step + 1
        pending := s.pending.map fun w =>
          { w with data := w.data ++ [if k < 12 then byteK (k % 4) s.cursor else 0x00] }
        outs := s.outs ++ [.transmit (if k < 12 then byteK (k % 4) s.cursor else 0x00)] }

/-- R254, R256, R147: one payload byte of a data block: one answer of the payload source is taken,
the scripted one or else a free value, and "no more data" sends `0x00`.
The answer's flag is the spec's decision D23; the free value and its counter are log entry 10, the device's
write under way log entry 5. -/
def Obligations.DataPayloadByteIsPulled : Prop :=
  ∀ (s : State) (rx : Byte), s.started = true → s.inFlight = true →
    s.phase = .writing → s.mode = .idle → s.variant = .data → 1 ≤ s.step → s.step ≤ 128 →
    (∀ (a : PayloadAnswer) (rest : List PayloadAnswer), s.payload = a :: rest →
      exec (.onByteTransferred rx) s = .next
        { s with
          step := s.step + 1, payload := rest
          pending := s.pending.map fun w =>
            { w with data := w.data ++ [if a.valid = true then a.byte else 0x00] }
          outs := s.outs ++ [.transmit (if a.valid = true then a.byte else 0x00)] }) ∧
    (s.payload = [] →
      ∃ a : PayloadAnswer, a = Config.payloadAnswer s.payloadCount ∧
        exec (.onByteTransferred rx) s = .next
          { s with
            step := s.step + 1, payloadCount := s.payloadCount + 1
            pending := s.pending.map fun w =>
              { w with data := w.data ++ [if a.valid = true then a.byte else 0x00] }
            outs := s.outs ++ [.transmit (if a.valid = true then a.byte else 0x00)] })

/-- R254, R257: the two filler bytes, then the completion of the packet.
The filler is the parameter of D11 (log entry 11). -/
def Obligations.FillersThenCompletion : Prop :=
  ∀ (s : State) (rx : Byte), s.started = true → s.inFlight = true →
    s.phase = .writing → s.mode = .idle →
    (s.step = 129 ∨ s.step = 130 →
      exec (.onByteTransferred rx) s = .next
        { s with step := s.step + 1, outs := s.outs ++ [.transmit Config.fillerByte] }) ∧
    (s.step = 131 →
      exec (.onByteTransferred rx) s = .next
        { s with
          phase := .awaitWriteBusy, step := 0, outs := s.outs ++ [.transmit 0xFF] })

/-- R108, R110, R254: the whole packet of a data block, the token being in flight: the 128 bytes, the
two fillers, and `0xFF` in the step that completes the packet.
The packet as one step is log entry 9, the device's write under way log entry 5. -/
def Obligations.DataPacketGoesOutWhole : Prop :=
  ∀ (s : State) (p : List Byte), s.started = true → s.inFlight = true →
    s.phase = .writing → s.mode = .idle → s.step = 1 → s.variant = .data → p.length = 128 →
    exec (.dataPacketOut p) s = .next
      { s with
        phase := .awaitWriteBusy, step := 0
        pending := s.pending.map fun w => { w with data := w.data ++ p }
        outs := s.outs ++ p.map .transmit ++
          [.transmit Config.fillerByte, .transmit Config.fillerByte, .transmit 0xFF] }

/-- R109, R254: the whole packet of the metadata block: the cursor three times in big-endian order,
116 zero bytes, the fillers. No other payload goes out in that variant.
The packet as one step and the refusal are log entry 9, the device's write under way log entry 5. -/
def Obligations.SuperPacketGoesOutWhole : Prop :=
  ∀ s : State, s.started = true → s.inFlight = true →
    s.phase = .writing → s.mode = .idle → s.step = 1 → s.variant = .super →
    let copy := [byteK 0 s.cursor, byteK 1 s.cursor, byteK 2 s.cursor, byteK 3 s.cursor]
    let payload := copy ++ copy ++ copy ++ List.replicate 116 0x00
    exec (.dataPacketOut payload) s = .next
      { s with
        phase := .awaitWriteBusy, step := 0
        pending := s.pending.map fun w => { w with data := w.data ++ payload }
        outs := s.outs ++ payload.map .transmit ++
          [.transmit Config.fillerByte, .transmit Config.fillerByte, .transmit 0xFF] } ∧
    ∀ other, other ≠ payload → exec (.dataPacketOut other) s = .refused .unitNotDue

/-- R258, R115: the accept token, any high nibble; any other byte faults. -/
def Obligations.AcceptTokenIsTheLowNibble : Prop :=
  ∀ (s : State) (rx : Byte) (high : BitVec 4), s.started = true → s.inFlight = true →
    s.phase = .awaitWriteBusy → s.mode = .idle → s.step = 0 →
    exec (.dataAcceptIn high) s = .next
      { s with step := 1, outs := s.outs ++ [.transmit 0xFF] } ∧
    (rx &&& 0x0F = 0x05 →
      exec (.onByteTransferred rx) s = .next
        { s with step := 1, outs := s.outs ++ [.transmit 0xFF] }) ∧
    (rx &&& 0x0F ≠ 0x05 →
      ∃ t, exec (.onByteTransferred rx) s = .next t ∧ FaultTaken .writeAckFailure s t)

/-- R259, R116, R76: the busy poll. `0xFF` is busy and changes nothing. Any other byte issues CMD13, and
the write under way is complete: the block at the address of its CMD24 holds its payload, and every
other byte of the device is as it was.
The device's side is the spec's general knowledge I-2 (log entry 5). -/
def Obligations.BusyPollEndsWithTheBlockStored : Prop :=
  ∀ (s : State) (rx : Byte), s.started = true → s.inFlight = true →
    s.phase = .awaitWriteBusy → s.mode = .idle → s.step ≠ 0 →
    exec .busyIn s = .next { s with outs := s.outs ++ [.transmit 0xFF] } ∧
    exec (.onByteTransferred 0xFF) s = .next { s with outs := s.outs ++ [.transmit 0xFF] } ∧
    (rx ≠ 0xFF → ∃ m : Memory,
      exec (.onByteTransferred rx) s = .next
        { s.frameIssued ⟨0x4D, 0x00, 0x00, 0x00, 0x00, 0x00⟩ .awaitStatus with mem := m } ∧
      (s.pending = none → m = s.mem) ∧
      ∀ w, s.pending = some w → w.data.length = 128 →
        m.readBlock w.addr 128 = w.data.map some ∧
        ∀ a : Nat, ¬ inBlock w.addr a → m.read a = s.mem.read a)

/-- R260: the first status byte; any other byte than `0x00`, first or second, faults. -/
def Obligations.FirstStatusByte : Prop :=
  ∀ (s : State) (rx : Byte), s.started = true → s.inFlight = true →
    s.phase = .awaitStatus → examines s rx →
    (rx = 0x00 → s.mode = .awaitingResponse ∨ s.step = 0 →
      exec (.onByteTransferred rx) s = .next
        { s with mode := .idle, step := 1, outs := s.outs ++ [.transmit 0xFF] } ∧
      exec .r1Ready s = .next
        { s with mode := .idle, step := 1, outs := s.outs ++ [.transmit 0xFF] }) ∧
    (rx ≠ 0x00 →
      ∃ t, exec (.onByteTransferred rx) s = .next t ∧ FaultTaken .writeAckFailure s t)

/-- R261 to R263: the second status byte. After the metadata block the data block's CMD24 goes out at
once, at the cursor, which advances; after a data block the device is deselected and the block
pauses in Ready.
The device's write under way is log entry 5. -/
def Obligations.SecondStatusByte : Prop :=
  ∀ s : State, s.started = true → s.inFlight = true →
    s.phase = .awaitStatus → s.mode = .idle → s.step ≠ 0 →
    (s.variant = .super →
      exec (.onByteTransferred 0x00) s = .next
        { s.frameIssued
            ⟨0x58, byteK 0 s.cursor, byteK 1 s.cursor, byteK 2 s.cursor, byteK 3 s.cursor, 0x00⟩
            .writing with
          selected := true, cursor := s.cursor + 128, superDone := false, variant := .data
          pending := some ⟨s.cursor, []⟩ }) ∧
    (s.variant = .data →
      exec (.onByteTransferred 0x00) s = .next
        { s with
          selected := false, phase := .ready, step := 0, inFlight := false
          pending := none, outs := s.outs ++ [.pause] })

/-- R260 to R263: the two status bytes as one unit, from the wait for the response.
The unit as one step is log entry 8, the device's write under way log entry 5. -/
def Obligations.StatusUnitEndsTheWrite : Prop :=
  ∀ s : State, s.started = true → s.inFlight = true →
    s.phase = .awaitStatus → s.mode = .awaitingResponse →
    (s.variant = .data →
      exec .cmd13Status s = .next
        { s with
          selected := false, phase := .ready, mode := .idle, step := 0, inFlight := false
          pending := none, outs := s.outs ++ [.transmit 0xFF, .pause] }) ∧
    (s.variant = .super →
      ∃ t, exec .cmd13Status s = .next t ∧ t.phase = .writing ∧ t.variant = .data ∧
        t.mode = .sendingCommand ∧ t.step = 1 ∧
        t.frame = ⟨0, byteK 0 s.cursor, byteK 1 s.cursor, byteK 2 s.cursor, byteK 3 s.cursor, 0⟩ ∧
        t.cursor = s.cursor + 128 ∧ t.superDone = false ∧ t.selected = true ∧ t.inFlight = true ∧
        t.outs = s.outs ++ [.transmit 0xFF, .transmit 0x58] ∧ t.pending = some ⟨s.cursor, []⟩ ∧
        t.mem = s.mem ∧ t.waitCount = s.waitCount ∧ t.cursorAlt = s.cursorAlt ∧
        t.metaC = s.metaC ∧ t.raised = s.raised ∧ t.started = s.started ∧ t.script = s.script ∧
        t.payload = s.payload ∧ t.payloadCount = s.payloadCount)

/-- R147, R256: with a source that has only the byte-or-sentinel interface the byte on the wire is the
source's byte, whatever it is.
The flag is the spec's decision D23. -/
def Obligations.SentinelSourceSendsTheSameBytes : Prop :=
  ∀ b : Byte, dataByte (answerOfSentinel b) = b

/-! ### Faults and whole-machine rules -/

/-- R302, R300, R304: in every state of a run, an event raises Fault exactly as the table of R302
says, and a fault leaves what R300 says.
What is recorded is the ghost of log entry 12. -/
def Obligations.FaultsAreExactlyTheTable : Prop :=
  ∀ (s t : State) (rx : Byte), RegistersOk s → exec (.onByteTransferred rx) s = .next t →
    t.raised = s.raised ++ (raisedBy s rx).toList ∧
    ∀ c, raisedBy s rx = some c → FaultTaken c s t

/-- R143, R154, R47: in every state of a run with an exchange in flight, every one of the 256 bytes has
a result, which ends in exactly one `Transmit` or one `Pause`, and it pauses exactly on entry to
Ready.
The outcomes are the report of log entry 12. -/
def Obligations.EveryByteHasOneOutcome : Prop :=
  ∀ (s : State) (rx : Byte), RegistersOk s → s.inFlight = true →
    ∃ t, exec (.onByteTransferred rx) s = .next t ∧
      ((∃ b, t.outs = s.outs ++ [.transmit b] ∧ t.phase ≠ .ready ∧ t.inFlight = true) ∨
       (t.outs = s.outs ++ [.pause] ∧ t.phase = .ready ∧ t.inFlight = false))

/-- R118, R144, R201, R230, R254: during PowerOnClock, a frame, its completion, the write packet and
its completion, and the padding and integrity bytes of the read packet, the received byte has no effect
at all. -/
def Obligations.IgnoredBytesHaveNoEffect : Prop :=
  ∀ (s : State) (x y : Byte),
    (s.mode = .sendingCommand ∨ s.mode = .idle ∧ s.phase = .powerOnClock ∨
      s.mode = .idle ∧ s.phase = .writing ∧ s.step ≠ 0 ∨
      s.mode = .idle ∧ s.phase = .readMetadataBlock ∧ 12 ≤ s.step) →
    exec (.onByteTransferred x) s = exec (.onByteTransferred y) s

/-- R338: the waits have no bound. A device that answers `0xFF`, to a command or while busy, or `0x01` to
every CMD1, keeps the block where it is, however long; so does a host that never has payload. -/
def Obligations.WaitsHaveNoBound : Prop :=
  ∀ (n : Nat) (s : State) (ignored : List Byte), s.started = true → ignored.length = 6 →
    (s.inFlight = true → s.mode = .awaitingResponse →
      byteEvents (List.replicate n 0xFF) s = .next
        { s with outs := s.outs ++ List.replicate n (.transmit 0xFF) }) ∧
    (s.inFlight = true → s.phase = .awaitReady → s.mode = .awaitingResponse → s.step = 0 →
      s.frame = ⟨0, 0, 0, 0, 0, 0⟩ →
      ∃ sent, byteEvents (List.replicate n (0x01 :: ignored)).flatten s = .next
        { s with outs := s.outs ++ sent }) ∧
    (s.inFlight = true → s.phase = .awaitWriteBusy → s.mode = .idle → s.step ≠ 0 →
      byteEvents (List.replicate n 0xFF) s = .next
        { s with outs := s.outs ++ List.replicate n (.transmit 0xFF) }) ∧
    (s.phase = .ready → s.inFlight = false →
      exec (.requestWrite false) s = .next { s with outs := s.outs ++ [.pause] })

/-- R209: in a run, no line of the host, the device or the payload source leads from Ready or a block
write back into bring-up but through Fault or `initialize`, and then to PowerOnClock.
What was raised is the ghost of log entry 12. -/
def Obligations.BringUpIsReenteredOnlyByFaultOrReset : Prop :=
  ∀ (s t : State) (op : ScriptOp) (rest : List ScriptOp), RegistersOk s →
    s.script = op :: rest → op.isHostOrDevice = true → s.phase.isBringUp = false →
    Sys2Proof.Machine.step s = .next t → t.phase.isBringUp = true →
    ResetRegisters t ∧ (op = .init ∨ ∃ c, t.raised = [c])

/-- R38, R252, R230: in a run, from Ready on, a line of the host, the device or the payload source leaves
the cursor as it was, or advances it by exactly 128 modulo 2^32 as it issues a data block's CMD24, or goes back to
PowerOnClock, where the cursor is 0.
The device's write under way is log entry 5. -/
def Obligations.CursorOnlyAdvancesByOneBlock : Prop :=
  ∀ (s t : State) (op : ScriptOp) (rest : List ScriptOp), RegistersOk s →
    s.script = op :: rest → op.isHostOrDevice = true → s.phase.isBringUp = false →
    Sys2Proof.Machine.step s = .next t →
    t.cursor = s.cursor ∨
    (t.cursor = s.cursor + 128 ∧ t.phase = .writing ∧ t.variant = .data ∧
      t.pending = some ⟨s.cursor, []⟩) ∨
    (t.cursor = 0 ∧ t.phase = .powerOnClock)

/-- R84, R255: a data block's CMD24 that an event issues follows a metadata block that is on the device
with the cursor in all three copies: what a block read of it answers.
What the device holds is log entry 5. -/
def Obligations.MetadataIsWrittenBeforeTheRegion : Prop :=
  ∀ (s t : State) (rx : Byte), RegistersOk s → DeviceOk s → s.phase = .awaitStatus →
    exec (.onByteTransferred rx) s = .next t → t.phase = .writing →
    t.variant = .data ∧ t.pending = some ⟨s.cursor, []⟩ ∧ s.cursor &&& 0x3FFFF = 0 ∧
    t.mem.readBlock 0 128 = (superPayload s.cursor).map some

/-- R87, R235, R255, R343: what the next bring-up recovers from a metadata block the block wrote is one
quarter-region past the region start it holds, or the default where that start is 0. -/
def Obligations.WrittenMetadataRecoversOneRegionOn : Prop :=
  ∀ cursor : Word, cursor &&& 0x3FFFF = 0 →
    ∀ p : List Byte, p = superPayload cursor →
    let a := be32 (p.getD 0 0) (p.getD 1 0) (p.getD 2 0) (p.getD 3 0)
    let b := be32 (p.getD 4 0) (p.getD 5 0) (p.getD 6 0) (p.getD 7 0)
    let c := be32 (p.getD 8 0) (p.getD 9 0) (p.getD 10 0) (p.getD 11 0)
    a = cursor ∧ b = cursor ∧ c = cursor ∧
    validate (recover a b c) = if cursor = 0 then 0x00040000 else cursor + 0x00040000

/-- R45, R32, R33, R34: the status outputs with the numbers of the enumerated registers, and
`status.ready`. -/
def Obligations.StatusOutputsReadTheRegisters : Prop :=
  ∀ s : State,
    s.status.phase =
      (match s.phase with
        | .powerOnClock => 1 | .awaitReset => 2 | .awaitInterfaceCheck => 3 | .awaitReady => 4
        | .awaitBlockLenAck => 5 | .awaitReadAck => 6 | .awaitDataToken => 7
        | .readMetadataBlock => 8 | .ready => 9 | .writing => 10 | .awaitWriteBusy => 11
        | .awaitStatus => 12 | .deselectIdle => 13 | .fault => 14) ∧
    s.status.variant = (match s.variant with | .data => 0 | .super => 1) ∧
    s.status.mode =
      (match s.mode with | .idle => 0 | .sendingCommand => 1 | .awaitingResponse => 2) ∧
    s.status.cursor = s.cursor ∧ s.status.selected = s.selected ∧
    s.status.inFlight = s.inFlight ∧
    (s.status.ready = true ↔ s.status.phase = 9 ∧ s.status.inFlight = false)

/-! ### Invariants -/

/-- R47, R48, R50: the invariant of the registers holds after reset, and so does the device's.
The device's invariant and the canonical form are the model's (log entries 5 and 7), and so are the
reset values they read (log entry 14). -/
def Obligations.ResetMeetsTheInvariants : Prop :=
  RegistersOk State.reset ∧ DeviceOk State.reset ∧ State.reset.mem.wf = true

/-- R47 to R49, R33, R35, R37, R30: every row keeps the invariant of the registers, the rows of the
environment and the block's own, the units of several bytes too.
The block's own rows as script lines are log entry 4. -/
def Obligations.EnvironmentRowsKeepTheRegisters : Prop :=
  ∀ (s t : State) (i : Instr), RegistersOk s → exec i s = .next t → RegistersOk t

/-- R76, R109, R179: every row keeps the invariant of the device's side.
The device's side is the model's (log entries 5 and 6). -/
def Obligations.EnvironmentRowsKeepTheDevice : Prop :=
  ∀ (s t : State) (i : Instr), RegistersOk s → DeviceOk s → exec i s = .next t → DeviceOk t

/-- Every step, whatever line its script holds, keeps every invariant.
The device's invariant and the canonical form are the model's (log entries 5, 6 and 7), the script
log entry 1 and the block's own rows on it log entry 4. -/
def Obligations.StepKeepsEveryInvariant : Prop :=
  ∀ s t : State, RegistersOk s → DeviceOk s → s.mem.wf = true →
    Sys2Proof.Machine.step s = .next t →
    RegistersOk t ∧ DeviceOk t ∧ t.mem.wf = true

/-- R70: every step, whatever it runs, keeps the storage address space in its canonical form.
The canonical form is the model's (log entry 7). -/
def Obligations.StepKeepsMemoryCanonical : Prop :=
  ∀ s t : State, s.mem.wf = true → Sys2Proof.Machine.step s = .next t → t.mem.wf = true

/-! ### Whole operations -/

/-- R208: bring-up. From PowerOnClock as reset and Fault leave it, with no gaps before the responses,
270 events reach Ready with the recovered cursor, whatever the ignored bytes are; the five commands go
out in order with idle bytes between them, the device is selected, and nothing is written to it.
The bytes handed over are 269, and 270 with dummy byte 1, where the total of R345's table says 271
(log entry 28). -/
def Obligations.BringUpTakesTwoHundredSeventyEvents : Prop :=
  ∀ (s : State) (dummy g0 g8 g1 g16 g17 rest : List Byte)
    (a0 a1 a2 a3 b0 b1 b2 b3 c0 c1 c2 c3 : Byte),
    s.started = true → s.phase = .powerOnClock → s.mode = .idle → s.step = 1 →
    s.inFlight = true → dummy.length = 100 → g0.length = 6 → g8.length = 6 → g1.length = 6 →
    g16.length = 6 → g17.length = 6 → rest.length = 118 →
    let events := dummy ++ g0 ++ [0x01] ++ g8 ++ [0x01, 0x00, 0x00, 0x01, 0xAA] ++ g1 ++ [0x00] ++
      g16 ++ [0x00] ++ g17 ++ [0x00] ++ [0xFE] ++
      [a0, a1, a2, a3, b0, b1, b2, b3, c0, c1, c2, c3] ++ rest
    events.length = 270 ∧
    ∃ t, byteEvents events s = .next t ∧ t.phase = .ready ∧ t.mode = .idle ∧ t.step = 0 ∧
      t.inFlight = false ∧ t.selected = true ∧ t.waitCount = 0 ∧ t.frame = ⟨0, 0, 0, 0, 0, 0⟩ ∧
      t.cursor = validate (recover (be32 a0 a1 a2 a3) (be32 b0 b1 b2 b3) (be32 c0 c1 c2 c3)) ∧
      t.cursorAlt = be32 b0 b1 b2 b3 ∧ t.metaC = be32 c0 c1 c2 c3 ∧
      t.variant = s.variant ∧ t.superDone = s.superDone ∧ t.mem = s.mem ∧
      t.pending = s.pending ∧ t.raised = s.raised ∧ t.payload = s.payload ∧
      t.payloadCount = s.payloadCount ∧ t.started = true ∧ t.script = s.script ∧
      t.outs = s.outs ++
        (List.replicate 99 (0xFF : Byte) ++
          [0x40, 0x00, 0x00, 0x00, 0x00, 0x95, 0xFF] ++ [0x48, 0x00, 0x00, 0x01, 0xAA, 0x87, 0xFF] ++
          List.replicate 4 0xFF ++ [0x41, 0x00, 0x00, 0x00, 0x00, 0x00, 0xFF] ++
          [0x50, 0x00, 0x00, 0x00, 0x80, 0x00, 0xFF] ++ [0x51, 0x00, 0x00, 0x00, 0x00, 0x00, 0xFF] ++
          [0xFF, 0xFF] ++ List.replicate 129 0xFF).map .transmit ++ [.pause]

/-- R264: a data-only write cycle. From Ready mid-region, `request_write(1)` and 148 + n events, n of them
busy, lead back to Ready, the cursor advanced by 128; the device's block at the old cursor holds the
source's 128 bytes and every other byte is as it was.
What the device holds is log entry 5. -/
def Obligations.DataCycleWritesOneBlock : Prop :=
  ∀ (s : State) (p g24 packet g13 : List Byte) (n : Nat) (high : BitVec 4) (last : Byte)
    (answers : List PayloadAnswer),
    RegistersOk s → s.phase = .ready → s.cursor &&& 0x3FFFF ≠ 0 →
    p.length = 128 → s.payload = p.map (fun b => ⟨true, b⟩) ++ answers →
    g24.length = 6 → packet.length = 131 → g13.length = 6 → last ≠ 0xFF →
    let events := g24 ++ [0x00] ++ packet ++ [high ++ (0x5 : BitVec 4)] ++ List.replicate n 0xFF ++
      [last] ++ g13 ++ [0x00, 0x00]
    events.length = 148 + n ∧
    ∃ u t, exec (.requestWrite true) s = .next u ∧ byteEvents events u = .next t ∧
      t.phase = .ready ∧ t.inFlight = false ∧ t.selected = false ∧ t.variant = .data ∧
      t.cursor = s.cursor + 128 ∧ t.payload = answers ∧ t.pending = none ∧
      t.raised = s.raised ∧ t.mem.readBlock s.cursor 128 = p.map some ∧
      ∀ a : Nat, ¬ inBlock s.cursor a → t.mem.read a = s.mem.read a

/-- R264, R84: a super-then-data cycle. From Ready at a region start, one `request_write(1)` and
296 + n1 + n2 events write the metadata block, then the data block at the old cursor; every
other byte is as it was.
What the device holds is log entry 5. After a wrap, at cursor 0, the data block overwrites the metadata block (R78). -/
def Obligations.RegionStartCycleWritesMetadataThenData : Prop :=
  ∀ (s : State) (p g1 k1 g2 g3 k2 g4 : List Byte) (n1 n2 : Nat) (h1 h2 : BitVec 4)
    (last1 last2 : Byte) (answers : List PayloadAnswer),
    RegistersOk s → s.phase = .ready → s.cursor &&& 0x3FFFF = 0 →
    p.length = 128 → s.payload = p.map (fun b => ⟨true, b⟩) ++ answers →
    g1.length = 6 → k1.length = 131 → g2.length = 6 → last1 ≠ 0xFF →
    g3.length = 6 → k2.length = 131 → g4.length = 6 → last2 ≠ 0xFF →
    let events := g1 ++ [0x00] ++ k1 ++ [h1 ++ (0x5 : BitVec 4)] ++ List.replicate n1 0xFF ++
      [last1] ++ g2 ++ [0x00, 0x00] ++
      (g3 ++ [0x00] ++ k2 ++ [h2 ++ (0x5 : BitVec 4)] ++ List.replicate n2 0xFF ++
      [last2] ++ g4 ++ [0x00, 0x00])
    events.length = 296 + n1 + n2 ∧
    ∃ u t, exec (.requestWrite true) s = .next u ∧ byteEvents events u = .next t ∧
      t.phase = .ready ∧ t.inFlight = false ∧ t.selected = false ∧
      t.cursor = s.cursor + 128 ∧ t.payload = answers ∧ t.pending = none ∧
      t.raised = s.raised ∧ t.mem.readBlock s.cursor 128 = p.map some ∧
      (s.cursor ≠ 0 → t.mem.readBlock 0 128 = (superPayload s.cursor).map some) ∧
      ∀ a : Nat, ¬ inBlock 0 a → ¬ inBlock s.cursor a → t.mem.read a = s.mem.read a

/-! ### Steps and encodings -/

/-- R7, R120: a step takes the next operation from the script and runs the instruction it decodes to at
the sequencer's position; what earlier steps reported is gone. A `pay` line loads the payload source and
runs none.
The script is log entry 1, the position log entry 3, the `pay` line log entry 10, the report log entry 12. -/
def Obligations.StepRunsTheDecodedInstruction : Prop :=
  (∀ (s : State) (op : ScriptOp) (rest : List ScriptOp) (i : Instr),
    s.script = op :: rest → decode ⟨s.phase, s.mode, s.step⟩ op = .ok i → i.wf = true →
    Sys2Proof.Machine.step s = exec i { s with script := rest, outs := [], raised := [] }) ∧
  ∀ (s : State) (answers : List PayloadAnswer) (rest : List ScriptOp),
    s.script = .pay answers :: rest →
    Sys2Proof.Machine.step s = .next
      { s with script := rest, outs := [], raised := [], payload := s.payload ++ answers }

/-- R100 to R104, R106, R113: the words of the spec decode to the rows they stand for.
The numbering of the bits is log entry 2, the position log entry 3. -/
def Obligations.SpecWordsDecode : Prop :=
  decodeTableWord 48 0x400000000095 = some .cmd0 ∧
  decodeTableWord 48 0x48000001AA87 = some .cmd8 ∧
  decodeTableWord 48 0x500000008000 = some .cmd16 ∧
  decodeTableWord 48 0x580008008000 = some (.cmd24 0x00080080) ∧
  decodeTableWord 40 0x01000001AA = some .cmd8Echo ∧
  decodeTableWord 8 0xE5 = some (.dataAcceptIn 0xE) ∧
  decodeTableWord 48 0x48000000AA87 = none ∧ decodeTableWord 8 0x02 = none

/-- R13: the big-endian helpers, as numbers and as slices, undo each other. -/
def Obligations.BigEndianHelpersUndoEachOther : Prop :=
  (∀ b0 b1 b2 b3 : Byte,
    (be32 b0 b1 b2 b3).toNat =
      b0.toNat * 2 ^ 24 + b1.toNat * 2 ^ 16 + b2.toNat * 2 ^ 8 + b3.toNat ∧
    byteK 0 (be32 b0 b1 b2 b3) = b0 ∧ byteK 1 (be32 b0 b1 b2 b3) = b1 ∧
    byteK 2 (be32 b0 b1 b2 b3) = b2 ∧ byteK 3 (be32 b0 b1 b2 b3) = b3) ∧
  ∀ v : Word,
    (byteK 0 v).toNat = v.toNat / 2 ^ 24 ∧ (byteK 1 v).toNat = v.toNat / 2 ^ 16 % 2 ^ 8 ∧
    (byteK 2 v).toNat = v.toNat / 2 ^ 8 % 2 ^ 8 ∧ (byteK 3 v).toNat = v.toNat % 2 ^ 8 ∧
    be32 (byteK 0 v) (byteK 1 v) (byteK 2 v) (byteK 3 v) = v

/-- R107: whatever the decoder accepts is a well-formed row read at a position of its own, and its
encoding is what was decoded: no other unit is accepted.
The positions are log entry 3. -/
def Obligations.EncodeOfDecode : Prop :=
  ∀ (p : Position) (op : ScriptOp) (i : Instr), decode p op = .ok i →
    encode i = op ∧ i.wf = true ∧ readableAt i p = true

/-- R100, R106, R108, R113 to R117, R121: every well-formed row, read at a position where its code is
read as that row, decodes to itself with every operand; and there is such a position for every row.
The positions are log entry 3. -/
def Obligations.DecodeOfEncode : Prop :=
  (∀ (i : Instr) (p : Position), i.wf = true → readableAt i p = true →
    decode p (encode i) = .ok i) ∧
  ∀ i : Instr, ∃ p : Position, readableAt i p = true
end

