-- ==== Sys2Proof/Laws/Memory.lean ====
section
/-! SUPPORT. The laws of the storage address space: the canonical form is kept, a read after a write gives the value written, a write leaves every other address alone. -/

namespace Sys2Proof.Machine.Memory

theorem wfFrom_mono {m : Memory} {l l' : Nat} (h : l' ≤ l) (hm : wfFrom l m = true) :
    wfFrom l' m = true := by
  cases m with
  | nil => rfl
  | cons c m =>
    simp only [wfFrom, Bool.and_eq_true, decide_eq_true_eq] at hm ⊢
    exact ⟨⟨by omega, hm.1.2⟩, hm.2⟩

theorem wfFrom_write {m : Memory} {l a : Nat} {v : Byte} (hl : l ≤ a) (ha : a < 2 ^ 32)
    (hm : wfFrom l m = true) : wfFrom l (m.write a v) = true := by
  induction m generalizing l with
  | nil => simpa [write, wfFrom, hl] using ha
  | cons c m ih =>
    simp only [wfFrom, Bool.and_eq_true, decide_eq_true_eq] at hm
    simp only [write]
    split
    · simp only [wfFrom, Bool.and_eq_true, decide_eq_true_eq]
      exact ⟨⟨hl, ha⟩, ⟨by omega, hm.1.2⟩, hm.2⟩
    · split
      · subst a
        simp only [wfFrom, Bool.and_eq_true, decide_eq_true_eq]
        exact hm
      · simp only [wfFrom, Bool.and_eq_true, decide_eq_true_eq]
        exact ⟨hm.1, ih (by omega) hm.2⟩

theorem wfFrom_forget {m : Memory} {l : Nat} (a : Nat) (hm : wfFrom l m = true) :
    wfFrom l (m.forget a) = true := by
  induction m generalizing l with
  | nil => rfl
  | cons c m ih =>
    simp only [wfFrom, Bool.and_eq_true, decide_eq_true_eq] at hm
    simp only [forget]
    split
    · exact wfFrom_mono (by omega) hm.2
    · simp only [wfFrom, Bool.and_eq_true, decide_eq_true_eq]
      exact ⟨hm.1, ih hm.2⟩

theorem wf_write {m : Memory} (a : Word) (v : Byte) (hm : m.wf = true) :
    (m.write a.toNat v).wf = true :=
  wfFrom_write (Nat.zero_le _) a.isLt hm

theorem wf_forget {m : Memory} (a : Nat) (hm : m.wf = true) : (m.forget a).wf = true :=
  wfFrom_forget a hm

theorem wf_writeBlock {m : Memory} (a : Word) (vs : List Byte) (hm : m.wf = true) :
    (m.writeBlock a vs).wf = true := by
  induction vs generalizing m a with
  | nil => exact hm
  | cons v vs ih => exact ih _ (wf_write a v hm)

theorem wf_forgetBlock {m : Memory} (a : Word) (n : Nat) (hm : m.wf = true) :
    (m.forgetBlock a n).wf = true := by
  induction n generalizing m a with
  | zero => exact hm
  | succ n ih => exact ih _ (wf_forget _ hm)

@[simp] theorem read_write_same (m : Memory) (a : Nat) (v : Byte) :
    (m.write a v).read a = some v := by
  induction m with
  | nil => simp [write, read]
  | cons c m ih =>
    simp only [write]
    split
    · simp [read]
    · split
      · simp [read]
      · simp [read, *]

theorem read_write_other {m : Memory} {a b : Nat} (v : Byte) (h : b ≠ a) :
    (m.write a v).read b = m.read b := by
  induction m with
  | nil => simp [write, read, h]
  | cons c m ih =>
    simp only [write]
    split
    · simp [read, h]
    · split
      · subst a; simp [read, h]
      · simp only [read]; split
        · rfl
        · exact ih

theorem read_forget_other {m : Memory} {a b : Nat} (h : b ≠ a) :
    (m.forget a).read b = m.read b := by
  induction m with
  | nil => rfl
  | cons c m ih =>
    simp only [forget]
    split
    · subst a; simp [read, h]
    · simp only [read]; split
      · rfl
      · exact ih

theorem read_below {m : Memory} {l a : Nat} (h : a < l) (hm : wfFrom l m = true) :
    m.read a = none := by
  induction m generalizing l with
  | nil => rfl
  | cons c m ih =>
    simp only [wfFrom, Bool.and_eq_true, decide_eq_true_eq] at hm
    simp only [read]
    rw [if_neg (by omega)]
    exact ih (by omega) hm.2

theorem read_forget_same {m : Memory} {l a : Nat} (hm : wfFrom l m = true) :
    (m.forget a).read a = none := by
  induction m generalizing l with
  | nil => rfl
  | cons c m ih =>
    simp only [wfFrom, Bool.and_eq_true, decide_eq_true_eq] at hm
    simp only [forget]
    split
    · exact read_below (by omega) hm.2
    · simp only [read]
      rw [if_neg ‹_›]
      exact ih hm.2

/-- The address of the next byte of a block. -/
theorem addr_succ (a : Word) (k : Nat) :
    a + 1 + BitVec.ofNat 32 k = a + BitVec.ofNat 32 (k + 1) := by
  rw [BitVec.ofNat_add, BitVec.add_assoc, BitVec.add_comm (BitVec.ofNat 32 k)]; rfl

/-- A block write leaves every address outside the block alone. -/
theorem read_writeBlock_other {m : Memory} {a : Word} {vs : List Byte} {b : Nat}
    (h : ∀ k, k < vs.length → b ≠ (a + BitVec.ofNat 32 k).toNat) :
    (m.writeBlock a vs).read b = m.read b := by
  induction vs generalizing m a with
  | nil => rfl
  | cons v vs ih =>
    rw [writeBlock, ih, read_write_other]
    · simpa using h 0 (by simp)
    · intro k hk
      have := h (k + 1) (by simpa using hk)
      rwa [addr_succ]

/-- Forgetting a block leaves every address outside it alone. -/
theorem read_forgetBlock_other {m : Memory} {a : Word} {n b : Nat}
    (h : ∀ k, k < n → b ≠ (a + BitVec.ofNat 32 k).toNat) :
    (m.forgetBlock a n).read b = m.read b := by
  induction n generalizing m a with
  | zero => rfl
  | succ n ih =>
    rw [forgetBlock, ih, read_forget_other]
    · simpa using h 0 (by simp)
    · intro k hk
      have := h (k + 1) (by omega)
      rwa [addr_succ]

/-- Forgetting never makes a byte known. -/
theorem read_forget_none {m : Memory} {b : Nat} (a : Nat) (hm : m.wf = true)
    (h : m.read b = none) : (m.forget a).read b = none := by
  by_cases e : b = a
  · rw [e]; exact read_forget_same hm
  · rw [read_forget_other e, h]

theorem read_forgetBlock_none {m : Memory} {b : Nat} (a : Word) (n : Nat) (hm : m.wf = true)
    (h : m.read b = none) : (m.forgetBlock a n).read b = none := by
  induction n generalizing m a with
  | zero => exact h
  | succ n ih => exact ih _ (wf_forget _ hm) (read_forget_none _ hm h)

/-- Forgetting a block leaves none of its bytes known. -/
theorem read_forgetBlock_same {m : Memory} {a : Word} {n k : Nat} (hm : m.wf = true) (hk : k < n) :
    (m.forgetBlock a n).read (a + BitVec.ofNat 32 k).toNat = none := by
  induction n generalizing m a k with
  | zero => omega
  | succ n ih =>
    cases k with
    | zero =>
      rw [forgetBlock, show a + BitVec.ofNat 32 0 = a by simp]
      exact read_forgetBlock_none _ _ (wf_forget _ hm) (read_forget_same hm)
    | succ k =>
      rw [forgetBlock, ← addr_succ]
      exact ih (wf_forget _ hm) (by omega)

/-- The bytes of a block reach less far than the address space, so no two of them share an address. -/
theorem readBlock_writeBlock {m : Memory} {a : Word} {vs : List Byte} (h : vs.length ≤ 2 ^ 32) :
    (m.writeBlock a vs).readBlock a vs.length = vs.map some := by
  induction vs generalizing m a with
  | nil => rfl
  | cons v vs ih =>
    simp only [List.length_cons] at h
    rw [writeBlock, List.length_cons, readBlock, ih (by omega), List.map_cons,
      read_writeBlock_other, read_write_same]
    intro k hk heq
    rw [addr_succ] at heq
    have h0 : (BitVec.ofNat 32 (k + 1)) = 0 := by
      have h1 := BitVec.eq_of_toNat_eq heq
      have h2 : a + 0 = a + BitVec.ofNat 32 (k + 1) := by rw [← h1]; simp
      exact (BitVec.add_right_inj a).mp h2.symm
    have h1 := congrArg BitVec.toNat h0
    rw [BitVec.toNat_ofNat] at h1
    change _ = 0 at h1
    omega

@[simp] theorem readBlock_length (m : Memory) (a : Word) (n : Nat) :
    (m.readBlock a n).length = n := by
  induction n generalizing a with
  | zero => rfl
  | succ n ih => simp [readBlock, ih]

end Sys2Proof.Machine.Memory
end

