-- ==== Sys2Proof/Laws/State.lean ====
section
/-! SUPPORT. What each update of State leaves in each field, so that no proof unfolds a record update. -/

namespace Sys2Proof.Machine

section Transmit

variable (b : Byte) (s : State)

@[simp] theorem transmit_phase : (transmit b s).phase = s.phase := rfl
@[simp] theorem transmit_variant : (transmit b s).variant = s.variant := rfl
@[simp] theorem transmit_mode : (transmit b s).mode = s.mode := rfl
@[simp] theorem transmit_step : (transmit b s).step = s.step := rfl
@[simp] theorem transmit_waitCount : (transmit b s).waitCount = s.waitCount := rfl
@[simp] theorem transmit_frame : (transmit b s).frame = s.frame := rfl
@[simp] theorem transmit_cursor : (transmit b s).cursor = s.cursor := rfl
@[simp] theorem transmit_cursorAlt : (transmit b s).cursorAlt = s.cursorAlt := rfl
@[simp] theorem transmit_metaC : (transmit b s).metaC = s.metaC := rfl
@[simp] theorem transmit_superDone : (transmit b s).superDone = s.superDone := rfl
@[simp] theorem transmit_selected : (transmit b s).selected = s.selected := rfl
@[simp] theorem transmit_inFlight : (transmit b s).inFlight = true := rfl
@[simp] theorem transmit_started : (transmit b s).started = s.started := rfl
@[simp] theorem transmit_script : (transmit b s).script = s.script := rfl
@[simp] theorem transmit_payload : (transmit b s).payload = s.payload := rfl
@[simp] theorem transmit_payloadCount : (transmit b s).payloadCount = s.payloadCount := rfl
@[simp] theorem transmit_mem : (transmit b s).mem = s.mem := rfl
@[simp] theorem transmit_pending : (transmit b s).pending = s.pending := rfl
@[simp] theorem transmit_outs : (transmit b s).outs = s.outs ++ [.transmit b] := rfl
@[simp] theorem transmit_raised : (transmit b s).raised = s.raised := rfl

end Transmit

section Pause

variable (s : State)

@[simp] theorem pause_phase : (pause s).phase = s.phase := rfl
@[simp] theorem pause_variant : (pause s).variant = s.variant := rfl
@[simp] theorem pause_mode : (pause s).mode = s.mode := rfl
@[simp] theorem pause_step : (pause s).step = s.step := rfl
@[simp] theorem pause_waitCount : (pause s).waitCount = s.waitCount := rfl
@[simp] theorem pause_frame : (pause s).frame = s.frame := rfl
@[simp] theorem pause_cursor : (pause s).cursor = s.cursor := rfl
@[simp] theorem pause_cursorAlt : (pause s).cursorAlt = s.cursorAlt := rfl
@[simp] theorem pause_metaC : (pause s).metaC = s.metaC := rfl
@[simp] theorem pause_superDone : (pause s).superDone = s.superDone := rfl
@[simp] theorem pause_selected : (pause s).selected = s.selected := rfl
@[simp] theorem pause_inFlight : (pause s).inFlight = false := rfl
@[simp] theorem pause_started : (pause s).started = s.started := rfl
@[simp] theorem pause_script : (pause s).script = s.script := rfl
@[simp] theorem pause_payload : (pause s).payload = s.payload := rfl
@[simp] theorem pause_payloadCount : (pause s).payloadCount = s.payloadCount := rfl
@[simp] theorem pause_mem : (pause s).mem = s.mem := rfl
@[simp] theorem pause_pending : (pause s).pending = s.pending := rfl
@[simp] theorem pause_outs : (pause s).outs = s.outs ++ [.pause] := rfl
@[simp] theorem pause_raised : (pause s).raised = s.raised := rfl

end Pause

section Reject

variable (s : State)

@[simp] theorem reject_phase : (reject s).phase = s.phase := rfl
@[simp] theorem reject_variant : (reject s).variant = s.variant := rfl
@[simp] theorem reject_mode : (reject s).mode = s.mode := rfl
@[simp] theorem reject_step : (reject s).step = s.step := rfl
@[simp] theorem reject_waitCount : (reject s).waitCount = s.waitCount := rfl
@[simp] theorem reject_frame : (reject s).frame = s.frame := rfl
@[simp] theorem reject_cursor : (reject s).cursor = s.cursor := rfl
@[simp] theorem reject_cursorAlt : (reject s).cursorAlt = s.cursorAlt := rfl
@[simp] theorem reject_metaC : (reject s).metaC = s.metaC := rfl
@[simp] theorem reject_superDone : (reject s).superDone = s.superDone := rfl
@[simp] theorem reject_selected : (reject s).selected = s.selected := rfl
@[simp] theorem reject_inFlight : (reject s).inFlight = s.inFlight := rfl
@[simp] theorem reject_started : (reject s).started = s.started := rfl
@[simp] theorem reject_script : (reject s).script = s.script := rfl
@[simp] theorem reject_payload : (reject s).payload = s.payload := rfl
@[simp] theorem reject_payloadCount : (reject s).payloadCount = s.payloadCount := rfl
@[simp] theorem reject_mem : (reject s).mem = s.mem := rfl
@[simp] theorem reject_pending : (reject s).pending = s.pending := rfl
@[simp] theorem reject_outs : (reject s).outs = s.outs ++ [.rejected] := rfl
@[simp] theorem reject_raised : (reject s).raised = s.raised := rfl

end Reject

section Select

variable (s : State)

@[simp] theorem select_phase : (select s).phase = s.phase := rfl
@[simp] theorem select_variant : (select s).variant = s.variant := rfl
@[simp] theorem select_mode : (select s).mode = s.mode := rfl
@[simp] theorem select_step : (select s).step = s.step := rfl
@[simp] theorem select_waitCount : (select s).waitCount = s.waitCount := rfl
@[simp] theorem select_frame : (select s).frame = s.frame := rfl
@[simp] theorem select_cursor : (select s).cursor = s.cursor := rfl
@[simp] theorem select_cursorAlt : (select s).cursorAlt = s.cursorAlt := rfl
@[simp] theorem select_metaC : (select s).metaC = s.metaC := rfl
@[simp] theorem select_superDone : (select s).superDone = s.superDone := rfl
@[simp] theorem select_selected : (select s).selected = true := rfl
@[simp] theorem select_inFlight : (select s).inFlight = s.inFlight := rfl
@[simp] theorem select_started : (select s).started = s.started := rfl
@[simp] theorem select_script : (select s).script = s.script := rfl
@[simp] theorem select_payload : (select s).payload = s.payload := rfl
@[simp] theorem select_payloadCount : (select s).payloadCount = s.payloadCount := rfl
@[simp] theorem select_mem : (select s).mem = s.mem := rfl
@[simp] theorem select_pending : (select s).pending = s.pending := rfl
@[simp] theorem select_outs : (select s).outs = s.outs := rfl
@[simp] theorem select_raised : (select s).raised = s.raised := rfl

end Select

section Deselect

variable (s : State)

@[simp] theorem deselect_phase : (deselect s).phase = s.phase := rfl
@[simp] theorem deselect_variant : (deselect s).variant = s.variant := rfl
@[simp] theorem deselect_mode : (deselect s).mode = s.mode := rfl
@[simp] theorem deselect_step : (deselect s).step = s.step := rfl
@[simp] theorem deselect_waitCount : (deselect s).waitCount = s.waitCount := rfl
@[simp] theorem deselect_frame : (deselect s).frame = s.frame := rfl
@[simp] theorem deselect_cursor : (deselect s).cursor = s.cursor := rfl
@[simp] theorem deselect_cursorAlt : (deselect s).cursorAlt = s.cursorAlt := rfl
@[simp] theorem deselect_metaC : (deselect s).metaC = s.metaC := rfl
@[simp] theorem deselect_superDone : (deselect s).superDone = s.superDone := rfl
@[simp] theorem deselect_selected : (deselect s).selected = false := rfl
@[simp] theorem deselect_inFlight : (deselect s).inFlight = s.inFlight := rfl
@[simp] theorem deselect_started : (deselect s).started = s.started := rfl
@[simp] theorem deselect_script : (deselect s).script = s.script := rfl
@[simp] theorem deselect_payload : (deselect s).payload = s.payload := rfl
@[simp] theorem deselect_payloadCount : (deselect s).payloadCount = s.payloadCount := rfl
@[simp] theorem deselect_mem : (deselect s).mem = s.mem := rfl
@[simp] theorem deselect_pending : (deselect s).pending = s.pending := rfl
@[simp] theorem deselect_outs : (deselect s).outs = s.outs := rfl
@[simp] theorem deselect_raised : (deselect s).raised = s.raised := rfl

end Deselect

section Issue

variable (op : BitVec 6) (arg : Word) (p : Phase) (s : State)

@[simp] theorem issue_phase : (issue op arg p s).phase = p := rfl
@[simp] theorem issue_variant : (issue op arg p s).variant = s.variant := rfl
@[simp] theorem issue_mode : (issue op arg p s).mode = .sendingCommand := rfl
@[simp] theorem issue_step : (issue op arg p s).step = 1 := rfl
@[simp] theorem issue_waitCount : (issue op arg p s).waitCount = s.waitCount := rfl
@[simp] theorem issue_frame : (issue op arg p s).frame = { buildFrame op arg with b0 := 0 } := rfl
@[simp] theorem issue_cursor : (issue op arg p s).cursor = s.cursor := rfl
@[simp] theorem issue_cursorAlt : (issue op arg p s).cursorAlt = s.cursorAlt := rfl
@[simp] theorem issue_metaC : (issue op arg p s).metaC = s.metaC := rfl
@[simp] theorem issue_superDone : (issue op arg p s).superDone = s.superDone := rfl
@[simp] theorem issue_selected : (issue op arg p s).selected = s.selected := rfl
@[simp] theorem issue_inFlight : (issue op arg p s).inFlight = true := rfl
@[simp] theorem issue_started : (issue op arg p s).started = s.started := rfl
@[simp] theorem issue_script : (issue op arg p s).script = s.script := rfl
@[simp] theorem issue_payload : (issue op arg p s).payload = s.payload := rfl
@[simp] theorem issue_payloadCount : (issue op arg p s).payloadCount = s.payloadCount := rfl
@[simp] theorem issue_mem : (issue op arg p s).mem = s.mem := rfl
@[simp] theorem issue_pending : (issue op arg p s).pending = s.pending := rfl
@[simp] theorem issue_outs : (issue op arg p s).outs = s.outs ++ [.transmit (frameByte0 op)] := rfl
@[simp] theorem issue_raised : (issue op arg p s).raised = s.raised := rfl

end Issue

section EnterPowerOnClock

variable (s : State)

@[simp] theorem enterPowerOnClock_phase : (enterPowerOnClock s).phase = .powerOnClock := rfl
@[simp] theorem enterPowerOnClock_variant : (enterPowerOnClock s).variant = s.variant := rfl
@[simp] theorem enterPowerOnClock_mode : (enterPowerOnClock s).mode = .idle := rfl
@[simp] theorem enterPowerOnClock_step : (enterPowerOnClock s).step = 1 := rfl
@[simp] theorem enterPowerOnClock_waitCount : (enterPowerOnClock s).waitCount = s.waitCount := rfl
@[simp] theorem enterPowerOnClock_frame : (enterPowerOnClock s).frame = s.frame := rfl
@[simp] theorem enterPowerOnClock_cursor : (enterPowerOnClock s).cursor = s.cursor := rfl
@[simp] theorem enterPowerOnClock_cursorAlt : (enterPowerOnClock s).cursorAlt = s.cursorAlt := rfl
@[simp] theorem enterPowerOnClock_metaC : (enterPowerOnClock s).metaC = s.metaC := rfl
@[simp] theorem enterPowerOnClock_superDone : (enterPowerOnClock s).superDone = s.superDone := rfl
@[simp] theorem enterPowerOnClock_selected : (enterPowerOnClock s).selected = s.selected := rfl
@[simp] theorem enterPowerOnClock_inFlight : (enterPowerOnClock s).inFlight = true := rfl
@[simp] theorem enterPowerOnClock_started : (enterPowerOnClock s).started = s.started := rfl
@[simp] theorem enterPowerOnClock_script : (enterPowerOnClock s).script = s.script := rfl
@[simp] theorem enterPowerOnClock_payload : (enterPowerOnClock s).payload = s.payload := rfl
@[simp] theorem enterPowerOnClock_payloadCount : (enterPowerOnClock s).payloadCount = s.payloadCount := rfl
@[simp] theorem enterPowerOnClock_mem : (enterPowerOnClock s).mem = s.mem := rfl
@[simp] theorem enterPowerOnClock_pending : (enterPowerOnClock s).pending = s.pending := rfl
@[simp] theorem enterPowerOnClock_outs : (enterPowerOnClock s).outs = s.outs ++ [.transmit idleTx] := rfl
@[simp] theorem enterPowerOnClock_raised : (enterPowerOnClock s).raised = s.raised := rfl

end EnterPowerOnClock

section ClearRegisters

variable (s : State)

@[simp] theorem clearRegisters_phase : (clearRegisters s).phase = s.phase := rfl
@[simp] theorem clearRegisters_variant : (clearRegisters s).variant = .data := rfl
@[simp] theorem clearRegisters_mode : (clearRegisters s).mode = .idle := rfl
@[simp] theorem clearRegisters_step : (clearRegisters s).step = 0 := rfl
@[simp] theorem clearRegisters_waitCount : (clearRegisters s).waitCount = 0 := rfl
@[simp] theorem clearRegisters_frame : (clearRegisters s).frame = Frame.zero := rfl
@[simp] theorem clearRegisters_cursor : (clearRegisters s).cursor = 0 := rfl
@[simp] theorem clearRegisters_cursorAlt : (clearRegisters s).cursorAlt = 0 := rfl
@[simp] theorem clearRegisters_metaC : (clearRegisters s).metaC = 0 := rfl
@[simp] theorem clearRegisters_superDone : (clearRegisters s).superDone = false := rfl
@[simp] theorem clearRegisters_selected : (clearRegisters s).selected = s.selected := rfl
@[simp] theorem clearRegisters_inFlight : (clearRegisters s).inFlight = s.inFlight := rfl
@[simp] theorem clearRegisters_started : (clearRegisters s).started = s.started := rfl
@[simp] theorem clearRegisters_script : (clearRegisters s).script = s.script := rfl
@[simp] theorem clearRegisters_payload : (clearRegisters s).payload = s.payload := rfl
@[simp] theorem clearRegisters_payloadCount : (clearRegisters s).payloadCount = s.payloadCount := rfl
@[simp] theorem clearRegisters_mem : (clearRegisters s).mem = s.mem := rfl
@[simp] theorem clearRegisters_pending : (clearRegisters s).pending = s.pending := rfl
@[simp] theorem clearRegisters_outs : (clearRegisters s).outs = s.outs := rfl
@[simp] theorem clearRegisters_raised : (clearRegisters s).raised = s.raised := rfl

end ClearRegisters

section Taking

variable (s : State) (rest : List ScriptOp)

@[simp] theorem taking_phase : (s.taking rest).phase = s.phase := rfl
@[simp] theorem taking_variant : (s.taking rest).variant = s.variant := rfl
@[simp] theorem taking_mode : (s.taking rest).mode = s.mode := rfl
@[simp] theorem taking_step : (s.taking rest).step = s.step := rfl
@[simp] theorem taking_waitCount : (s.taking rest).waitCount = s.waitCount := rfl
@[simp] theorem taking_frame : (s.taking rest).frame = s.frame := rfl
@[simp] theorem taking_cursor : (s.taking rest).cursor = s.cursor := rfl
@[simp] theorem taking_cursorAlt : (s.taking rest).cursorAlt = s.cursorAlt := rfl
@[simp] theorem taking_metaC : (s.taking rest).metaC = s.metaC := rfl
@[simp] theorem taking_superDone : (s.taking rest).superDone = s.superDone := rfl
@[simp] theorem taking_selected : (s.taking rest).selected = s.selected := rfl
@[simp] theorem taking_inFlight : (s.taking rest).inFlight = s.inFlight := rfl
@[simp] theorem taking_started : (s.taking rest).started = s.started := rfl
@[simp] theorem taking_script : (s.taking rest).script = rest := rfl
@[simp] theorem taking_payload : (s.taking rest).payload = s.payload := rfl
@[simp] theorem taking_payloadCount : (s.taking rest).payloadCount = s.payloadCount := rfl
@[simp] theorem taking_mem : (s.taking rest).mem = s.mem := rfl
@[simp] theorem taking_pending : (s.taking rest).pending = s.pending := rfl
@[simp] theorem taking_outs : (s.taking rest).outs = [] := rfl
@[simp] theorem taking_raised : (s.taking rest).raised = [] := rfl

end Taking

section Supplied

variable (s : State) (answers : List PayloadAnswer)

@[simp] theorem supplied_phase : (s.supplied answers).phase = s.phase := rfl
@[simp] theorem supplied_variant : (s.supplied answers).variant = s.variant := rfl
@[simp] theorem supplied_mode : (s.supplied answers).mode = s.mode := rfl
@[simp] theorem supplied_step : (s.supplied answers).step = s.step := rfl
@[simp] theorem supplied_waitCount : (s.supplied answers).waitCount = s.waitCount := rfl
@[simp] theorem supplied_frame : (s.supplied answers).frame = s.frame := rfl
@[simp] theorem supplied_cursor : (s.supplied answers).cursor = s.cursor := rfl
@[simp] theorem supplied_cursorAlt : (s.supplied answers).cursorAlt = s.cursorAlt := rfl
@[simp] theorem supplied_metaC : (s.supplied answers).metaC = s.metaC := rfl
@[simp] theorem supplied_superDone : (s.supplied answers).superDone = s.superDone := rfl
@[simp] theorem supplied_selected : (s.supplied answers).selected = s.selected := rfl
@[simp] theorem supplied_inFlight : (s.supplied answers).inFlight = s.inFlight := rfl
@[simp] theorem supplied_started : (s.supplied answers).started = s.started := rfl
@[simp] theorem supplied_script : (s.supplied answers).script = s.script := rfl
@[simp] theorem supplied_payload : (s.supplied answers).payload = s.payload ++ answers := rfl
@[simp] theorem supplied_payloadCount : (s.supplied answers).payloadCount = s.payloadCount := rfl
@[simp] theorem supplied_mem : (s.supplied answers).mem = s.mem := rfl
@[simp] theorem supplied_pending : (s.supplied answers).pending = s.pending := rfl
@[simp] theorem supplied_outs : (s.supplied answers).outs = s.outs := rfl
@[simp] theorem supplied_raised : (s.supplied answers).raised = s.raised := rfl

end Supplied

section WithAnswers

variable (bytes : List Byte) (s : State)

@[simp] theorem withAnswers_phase : (withAnswers bytes s).phase = s.phase := rfl
@[simp] theorem withAnswers_variant : (withAnswers bytes s).variant = s.variant := rfl
@[simp] theorem withAnswers_mode : (withAnswers bytes s).mode = s.mode := rfl
@[simp] theorem withAnswers_step : (withAnswers bytes s).step = s.step := rfl
@[simp] theorem withAnswers_waitCount : (withAnswers bytes s).waitCount = s.waitCount := rfl
@[simp] theorem withAnswers_frame : (withAnswers bytes s).frame = s.frame := rfl
@[simp] theorem withAnswers_cursor : (withAnswers bytes s).cursor = s.cursor := rfl
@[simp] theorem withAnswers_cursorAlt : (withAnswers bytes s).cursorAlt = s.cursorAlt := rfl
@[simp] theorem withAnswers_metaC : (withAnswers bytes s).metaC = s.metaC := rfl
@[simp] theorem withAnswers_superDone : (withAnswers bytes s).superDone = s.superDone := rfl
@[simp] theorem withAnswers_selected : (withAnswers bytes s).selected = s.selected := rfl
@[simp] theorem withAnswers_inFlight : (withAnswers bytes s).inFlight = s.inFlight := rfl
@[simp] theorem withAnswers_started : (withAnswers bytes s).started = s.started := rfl
@[simp] theorem withAnswers_script : (withAnswers bytes s).script = s.script := rfl
@[simp] theorem withAnswers_payload : (withAnswers bytes s).payload = bytes.map (fun b => ⟨true, b⟩) ++ s.payload := rfl
@[simp] theorem withAnswers_payloadCount : (withAnswers bytes s).payloadCount = s.payloadCount := rfl
@[simp] theorem withAnswers_mem : (withAnswers bytes s).mem = s.mem := rfl
@[simp] theorem withAnswers_pending : (withAnswers bytes s).pending = s.pending := rfl
@[simp] theorem withAnswers_outs : (withAnswers bytes s).outs = s.outs := rfl
@[simp] theorem withAnswers_raised : (withAnswers bytes s).raised = s.raised := rfl

end WithAnswers

section Placed

variable (s : State) (p : Phase) (m : Mode) (k : Byte)

@[simp] theorem placed_phase : (s.placed p m k).phase = p := rfl
@[simp] theorem placed_variant : (s.placed p m k).variant = s.variant := rfl
@[simp] theorem placed_mode : (s.placed p m k).mode = m := rfl
@[simp] theorem placed_step : (s.placed p m k).step = k := rfl
@[simp] theorem placed_waitCount : (s.placed p m k).waitCount = s.waitCount := rfl
@[simp] theorem placed_frame : (s.placed p m k).frame = s.frame := rfl
@[simp] theorem placed_cursor : (s.placed p m k).cursor = s.cursor := rfl
@[simp] theorem placed_cursorAlt : (s.placed p m k).cursorAlt = s.cursorAlt := rfl
@[simp] theorem placed_metaC : (s.placed p m k).metaC = s.metaC := rfl
@[simp] theorem placed_superDone : (s.placed p m k).superDone = s.superDone := rfl
@[simp] theorem placed_selected : (s.placed p m k).selected = s.selected := rfl
@[simp] theorem placed_inFlight : (s.placed p m k).inFlight = true := rfl
@[simp] theorem placed_started : (s.placed p m k).started = true := rfl
@[simp] theorem placed_script : (s.placed p m k).script = s.script := rfl
@[simp] theorem placed_payload : (s.placed p m k).payload = s.payload := rfl
@[simp] theorem placed_payloadCount : (s.placed p m k).payloadCount = s.payloadCount := rfl
@[simp] theorem placed_mem : (s.placed p m k).mem = s.mem := rfl
@[simp] theorem placed_pending : (s.placed p m k).pending = s.pending := rfl
@[simp] theorem placed_outs : (s.placed p m k).outs = s.outs := rfl
@[simp] theorem placed_raised : (s.placed p m k).raised = s.raised := rfl

end Placed

end Sys2Proof.Machine
end

