-- ==== Sys2Proof/Laws/Ops.lean ====
section
/-! SUPPORT. What each shared operation does, said once: issuing a frame, taking a fault, an event by mode and phase, a unit of several bytes. -/

namespace Sys2Proof.Machine

/-- `Issue` writes the registers R170 names and no other. -/
theorem issue_eq (op : BitVec 6) (arg : Word) (p : Phase) (s : State) :
    issue op arg p s = s.frameIssued (buildFrame op arg) p := rfl

/-- Abandoning a write touches the device's side only. -/
theorem abandonWrite_eq (s : State) :
    abandonWrite s = { s with pending := none, mem := (abandonWrite s).mem } := by
  cases h : s.pending with
  | none => cases s; cases h; rfl
  | some w => simp only [abandonWrite, h]

theorem abandonWrite_device (s : State) : WriteAbandoned s (abandonWrite s) where
  pending := by rw [abandonWrite_eq s]
  whole h := by simp [abandonWrite, h]
  outside w hw a ha := by
    simp only [abandonWrite, hw]
    exact Memory.read_forgetBlock_other fun k hk e => ha ⟨k, hk, e⟩
  forgotten hm w hw a ha := by
    obtain ⟨k, hk, rfl⟩ := ha
    simp only [abandonWrite, hw]
    exact Memory.read_forgetBlock_same hm hk

theorem abandonWrite_mem_wf {s : State} (h : s.mem.wf = true) : (abandonWrite s).mem.wf = true := by
  cases hp : s.pending with
  | none => simpa only [abandonWrite, hp] using h
  | some w => simpa only [abandonWrite, hp] using Memory.wf_forgetBlock _ _ h

/-- Taking a fault, field by field. -/
theorem raiseFault_eq (c : FaultClass) (s : State) :
    raiseFault c s =
      { s with
        phase := .powerOnClock, variant := .data, mode := .idle, step := 1, waitCount := 0
        frame := Frame.zero, cursor := 0, cursorAlt := 0, metaC := 0, superDone := false
        selected := false, inFlight := true, pending := none, mem := (abandonWrite s).mem
        outs := s.outs ++ [.transmit idleTx], raised := s.raised ++ [c] } := by
  unfold raiseFault
  rw [abandonWrite_eq]
  have : (abandonWrite { s with raised := s.raised ++ [c] }).mem = (abandonWrite s).mem := by
    cases h : s.pending <;> simp only [abandonWrite, h]
  simp only [this]
  rfl

/-- The block's reset, field by field. -/
theorem resetBlock_eq (s : State) :
    resetBlock s =
      { s with
        phase := .powerOnClock, variant := .data, mode := .idle, step := 1, waitCount := 0
        frame := Frame.zero, cursor := 0, cursorAlt := 0, metaC := 0, superDone := false
        selected := false, inFlight := true, started := true, pending := none
        mem := (abandonWrite s).mem, outs := s.outs ++ [.transmit idleTx] } := by
  unfold resetBlock
  rw [abandonWrite_eq]
  have : (abandonWrite { s with started := true }).mem = (abandonWrite s).mem := by
    cases h : s.pending <;> simp only [abandonWrite, h]
  simp only [this]
  rfl

theorem writeAbandoned_congr {s t t' : State} (h : WriteAbandoned s t)
    (hp : t'.pending = t.pending) (hm : t'.mem = t.mem) : WriteAbandoned s t' where
  pending := hp.trans h.pending
  whole e := hm.trans (h.whole e)
  outside w hw a ha := by rw [hm]; exact h.outside w hw a ha
  forgotten hs w hw a ha := by rw [hm]; exact h.forgotten hs w hw a ha

theorem raiseFault_taken (c : FaultClass) (s : State) : FaultTaken c s (raiseFault c s) := by
  rw [raiseFault_eq]
  exact
    { registers := ⟨rfl, rfl, rfl, rfl, rfl, rfl, rfl, rfl, rfl, rfl, rfl, rfl⟩
      handedOver := rfl
      raised := rfl
      device := writeAbandoned_congr (abandonWrite_device s) (by rw [abandonWrite_eq]) rfl
      started := rfl, script := rfl, payload := rfl, payloadCount := rfl }

/-- An event that R157 does not refuse is dispatched by its mode. -/
theorem byteEvent_eq {s : State} (rx : Byte) (hs : s.started = true) (hf : s.inFlight = true) :
    byteEvent rx s = dispatchEvent rx { s with inFlight := false } := by
  simp [byteEvent, hs, hf]

theorem byteEvent_next {rx : Byte} {s t : State} (h : byteEvent rx s = .next t) :
    s.started = true ∧ s.inFlight = true ∧
      dispatchEvent rx { s with inFlight := false } = .next t := by
  unfold byteEvent at h
  split at h
  · cases h
  · split at h
    · cases h
    · exact ⟨by simp_all, by simp_all, h⟩

/-- The state in which a phase handler examines the byte of an event (R143, R146). -/
def examining (s : State) : State :=
  match s.mode with
  | .awaitingResponse => { s with inFlight := false, mode := .idle, step := 0 }
  | .idle => { s with inFlight := false }
  | .sendingCommand => { s with inFlight := false }

/-- What an event can do, by mode: send the frame on, skip `0xFF`, or run the phase's handler. -/
theorem byteEvent_cases {rx : Byte} {s t : State} (h : byteEvent rx s = .next t) :
    s.started = true ∧ s.inFlight = true ∧
      (s.mode = .sendingCommand ∧ t = frameStep { s with inFlight := false } ∨
       s.mode = .awaitingResponse ∧ rx = 0xFF ∧ t = transmit idleTx { s with inFlight := false } ∨
       (s.mode = .idle ∨ s.mode = .awaitingResponse ∧ rx ≠ 0xFF) ∧
         phaseDispatch rx (examining s) = .next t) := by
  obtain ⟨hs, hf, h⟩ := byteEvent_next h
  refine ⟨hs, hf, ?_⟩
  cases hm : s.mode
  · exact .inr (.inr ⟨.inl rfl, by simpa [dispatchEvent, hm, examining] using h⟩)
  · simp only [dispatchEvent, hm] at h
    cases h
    exact .inl ⟨rfl, rfl⟩
  · simp only [dispatchEvent, hm, responseWait] at h
    split at h
    · cases h
      exact .inr (.inl ⟨rfl, ‹_›, rfl⟩)
    · exact .inr (.inr ⟨.inr ⟨rfl, ‹_›⟩, by simpa [examining, hm] using h⟩)

/-- An event whose byte reaches the handler is the handler's. -/
theorem byteEvent_examined {s : State} {rx : Byte} (hs : s.started = true)
    (hf : s.inFlight = true) (he : examines s rx) :
    byteEvent rx s = phaseDispatch rx (examining s) := by
  rw [byteEvent_eq rx hs hf]
  rcases he with h | ⟨h, hx⟩
  · simp [dispatchEvent, examining, h]
  · simp only [dispatchEvent, h, responseWait, if_neg hx, examining]

@[simp] theorem examining_phase (s : State) : (examining s).phase = s.phase := by
  unfold examining; split <;> rfl

/-- Taking a fault reads the ports and the device only. -/
theorem raiseFault_congr (c : FaultClass) {s s' : State} (h1 : s'.started = s.started)
    (h2 : s'.script = s.script) (h3 : s'.payload = s.payload)
    (h4 : s'.payloadCount = s.payloadCount) (h5 : s'.mem = s.mem) (h6 : s'.pending = s.pending)
    (h7 : s'.outs = s.outs) (h8 : s'.raised = s.raised) : raiseFault c s' = raiseFault c s := by
  have h : (abandonWrite s').mem = (abandonWrite s).mem := by
    unfold abandonWrite; rw [h6, h5]; cases s.pending <;> simp only [h5]
  simp only [raiseFault_eq, h, h1, h2, h3, h4, h7, h8]

/-- A fault taken while an event is examined is a fault taken from the state before the event. -/
theorem raiseFault_examining (c : FaultClass) (s : State) :
    raiseFault c (examining s) = raiseFault c s := by
  unfold examining
  split <;> exact raiseFault_congr c rfl rfl rfl rfl rfl rfl rfl rfl

/-- What a phase's handler can do. -/
theorem phaseDispatch_cases {rx : Byte} {s t : State} (h : phaseDispatch rx s = .next t) :
    (s.phase = .powerOnClock ∧ t = handlePowerOnClock s) ∨
    (s.phase = .awaitReset ∧ t = handleAwaitReset rx s) ∨
    (s.phase = .awaitInterfaceCheck ∧ handleAwaitInterfaceCheck rx s = .next t) ∨
    (s.phase = .awaitReady ∧ t = handleAwaitReady rx s) ∨
    (s.phase = .awaitBlockLenAck ∧ t = handleAwaitBlockLenAck rx s) ∨
    (s.phase = .awaitReadAck ∧ t = handleAwaitReadAck rx s) ∨
    (s.phase = .awaitDataToken ∧ t = handleAwaitDataToken rx s) ∨
    (s.phase = .readMetadataBlock ∧ t = handleReadMetadataBlock rx s) ∨
    (s.phase = .writing ∧ t = handleWriting rx s) ∨
    (s.phase = .awaitWriteBusy ∧ t = handleAwaitWriteBusy rx s) ∨
    (s.phase = .awaitStatus ∧ t = handleAwaitStatus rx s) := by
  unfold phaseDispatch at h
  split at h <;> simp_all

/-- Answering next twice: the first operation's state is where the second starts. -/
theorem andThen_next {r : Result} {f : State → Result} {t : State} (h : r.andThen f = .next t) :
    ∃ s, r = .next s ∧ f s = .next t := by
  cases r with
  | next s => exact ⟨s, rfl, h⟩
  | fault e => cases h
  | refused e => cases h

@[simp] theorem andThen_of_next (s : State) (f : State → Result) :
    Result.andThen (.next s) f = f s := rfl

/-- What every event keeps, every unit of several bytes keeps. -/
theorem byteEvents_keeps {P : State → Prop}
    (hP : ∀ rx s t, P s → byteEvent rx s = .next t → P t) :
    ∀ (bytes : List Byte) (s t : State), P s → byteEvents bytes s = .next t → P t
  | [], s, t, hs, h => by cases h; exact hs
  | rx :: rest, s, t, hs, h => by
    obtain ⟨u, hu, ht⟩ := andThen_next h
    exact byteEvents_keeps hP rest u t (hP rx s u hs hu) ht

theorem byteEvents_append (xs ys : List Byte) (s : State) :
    byteEvents (xs ++ ys) s = (byteEvents xs s).andThen (byteEvents ys) := by
  induction xs generalizing s with
  | nil => rfl
  | cons x xs ih =>
    simp only [List.cons_append, byteEvents]
    cases byteEvent x s with
    | next u => exact ih u
    | fault e => rfl
    | refused e => rfl

/-- A step takes one line from the script: the payload source's, or an operation of the block. -/
theorem step_next {s t : State} (h : step s = .next t) :
    (∃ answers rest, s.script = .pay answers :: rest ∧ t = (s.taking rest).supplied answers) ∨
    ∃ op rest i, s.script = op :: rest ∧ decode s.position op = .ok i ∧
      exec i (s.taking rest) = .next t := by
  unfold step at h
  split at h
  · cases h
  · next answers rest e => cases h; exact .inl ⟨answers, rest, e, rfl⟩
  · next op rest _ e =>
    split at h
    · cases h
    · next i hi => exact .inr ⟨op, rest, i, e, hi, h⟩

/-! ### The outbound rows are operations of the block -/

/-- A unit that is handed over is handed over by a completion event (R30). -/
theorem handOver_next {due : Bool} {rx : Byte} {s t : State} (h : handOver due rx s = .next t) :
    due = true ∧ byteEvent rx s = .next t := by
  unfold handOver at h
  split at h
  · cases h
  split at h
  · cases h
  split at h
  · cases h
  split at h
  · exact ⟨‹_›, h⟩
  · cases h

/-- Where a unit is due its hand-over is the completion event. -/
theorem handOver_due {rx : Byte} {s : State} (hs : s.started = true) (hf : s.inFlight = true)
    (hm : s.mode ≠ .sendingCommand) : handOver true rx s = byteEvent rx s := by
  simp [handOver, hs, hf, hm]

/-- CMD24 is the WriteDecision of Ready, or the event that ends a metadata block (R252, R261). -/
theorem execCmd24_next {addr : Word} {s t : State} (h : execCmd24 addr s = .next t) :
    s.started = true ∧
      (s.isReady = true ∧ addr = writeAddress s ∧ t = writeDecision s ∨
       byteEvent 0x00 s = .next t) := by
  unfold execCmd24 at h
  split at h
  · cases h
  · refine ⟨by simp_all, ?_⟩
    split at h
    · split at h
      · cases h; exact .inl ⟨‹_›, ‹_›, rfl⟩
      · cases h
    · exact .inr (handOver_next h).2

/-- The idle byte goes out in a completion event. -/
theorem execIdleOut_next {s t : State} (h : execIdleOut s = .next t) :
    ∃ rx, idleByte s = some rx ∧ byteEvent rx s = .next t := by
  unfold execIdleOut at h
  split at h
  · cases (handOver_next h).1
  · exact ⟨_, ‹_›, h⟩

/-- A write packet goes out in its 131 completion events. -/
theorem execDataPacketOut_next {payload : List Byte} {s t : State}
    (h : execDataPacketOut payload s = .next t) :
    s.variant = .data ∧ streamPacket (withAnswers payload s) = .next t ∨
    s.variant = .super ∧ payload = superPayload s.cursor ∧ streamPacket s = .next t := by
  unfold execDataPacketOut at h
  split at h
  · split at h
    · exact .inl ⟨‹_›, h⟩
    · split at h
      · exact .inr ⟨‹_›, ‹_›, h⟩
      · cases h
  · cases (handOver_next h).1

/-- Every row is one of the operations of 40_host_interface.md, or a run of events (R30): what an event,
`initialize`, a rejection, a pause kept, the WriteDecision of Ready and loading the payload source keep,
every row keeps. -/
theorem exec_keeps {P : State → Prop}
    (event : ∀ rx s t, P s → byteEvent rx s = .next t → P t)
    (reset : ∀ s, P s → P (resetBlock s)) (rejected : ∀ s, P s → P (reject s))
    (paused : ∀ s, P s → s.phase = .ready → s.inFlight = false → P (pause s))
    (decision : ∀ s, P s → s.phase = .ready → s.inFlight = false → P (writeDecision s))
    (answers : ∀ bytes s, P s → P (withAnswers bytes s))
    {i : Instr} {s t : State} (hs : P s) (h : exec i s = .next t) : P t := by
  have one : ∀ rx, byteEvent rx s = .next t → P t := fun rx => event rx s t hs
  have many : ∀ bytes u, P u → byteEvents bytes u = .next t → P t := fun bytes u hu =>
    byteEvents_keeps event bytes u t hu
  have out : ∀ due rx, handOver due rx s = .next t → P t := fun due rx h => one rx (handOver_next h).2
  cases i with
  | cmd0 => exact out _ _ h
  | cmd8 => exact out _ _ h
  | cmd1 =>
    simp only [exec, execCmd1] at h
    split at h <;> exact out _ _ h
  | cmd16 => exact out _ _ h
  | cmd17 => exact out _ _ h
  | cmd24 addr =>
    rcases (execCmd24_next h).2 with ⟨hr, -, rfl⟩ | h
    · simp only [State.isReady, Bool.and_eq_true, beq_iff_eq, Bool.not_eq_true'] at hr
      exact decision s hs hr.1 hr.2
    · exact one _ h
  | cmd13 => exact out _ _ h
  | dataTokenOut => exact out _ _ h
  | dataPacketOut payload =>
    rcases execDataPacketOut_next h with ⟨-, h⟩ | ⟨-, -, h⟩
    · exact many _ _ (answers _ _ hs) h
    · exact many _ _ hs h
  | idleOut =>
    obtain ⟨rx, -, h⟩ := execIdleOut_next h
    exact one rx h
  | r1Idle => exact one _ h
  | r1Ready => exact one _ h
  | cmd8Echo => exact many _ _ hs h
  | cmd13Status => exact many _ _ hs h
  | readTokenIn => exact one _ h
  | tokenWaitIn => exact one _ h
  | readPacketIn => exact many _ _ hs h
  | dataAcceptIn => exact one _ h
  | busyIn => exact one _ h
  | responseWaitIn => exact one _ h
  | initializeOp =>
    simp only [exec, execInitialize] at h
    split at h
    · cases h
    · cases h; exact reset s hs
  | onByteTransferred => exact one _ h
  | requestWrite =>
    simp only [exec, execRequestWrite] at h
    split at h
    · cases h
    split at h
    · cases h; exact rejected s hs
    next hr =>
    simp only [not_not] at hr
    split at h
    · cases h; exact paused s hs hr.1 hr.2
    · cases h; exact decision s hs hr.1 hr.2

end Sys2Proof.Machine
end

