-- ==== Sys2Proof/Laws/Events.lean ====
section
/-! SUPPORT. Bytes and words, events one by one in mode Idle, and the long runs of events: the read packet and the write packet. -/

namespace Sys2Proof.Machine

/-! ### Bytes and words -/

/-- Shifting four bytes in gives their big-endian value, whatever the word held. -/
theorem be32_shift (w : Word) (a b c d : Byte) :
    shiftIn (shiftIn (shiftIn (shiftIn w a) b) c) d = be32 a b c d := by
  unfold shiftIn be32
  apply BitVec.eq_of_getLsbD_eq
  intro i hi
  simp only [BitVec.getLsbD_or, BitVec.getLsbD_shiftLeft, BitVec.getLsbD_append,
    BitVec.getLsbD_setWidth]
  interval_cases i <;> simp

/-- The four bytes of a word, put together again. -/
theorem be32_byteK (v : Word) : be32 (byteK 0 v) (byteK 1 v) (byteK 2 v) (byteK 3 v) = v := by
  unfold be32 byteK
  apply BitVec.eq_of_getLsbD_eq
  intro i hi
  simp only [BitVec.getLsbD_append, BitVec.getLsbD_extractLsb']
  interval_cases i <;> simp

/-- The four bytes of a big-endian word. -/
theorem byteK_be32 (a b c d : Byte) :
    byteK 0 (be32 a b c d) = a ∧ byteK 1 (be32 a b c d) = b ∧ byteK 2 (be32 a b c d) = c ∧
      byteK 3 (be32 a b c d) = d := by
  unfold be32 byteK
  refine ⟨?_, ?_, ?_, ?_⟩ <;> apply BitVec.eq_of_getLsbD_eq <;> intro i hi <;>
    simp only [BitVec.getLsbD_append, BitVec.getLsbD_extractLsb'] <;> interval_cases i <;> simp

/-- The first 12 bytes of the metadata payload are the cursor three times, the rest zeros. -/
theorem superPayload_eq (c : Word) :
    superPayload c =
      [byteK 0 c, byteK 1 c, byteK 2 c, byteK 3 c] ++ [byteK 0 c, byteK 1 c, byteK 2 c, byteK 3 c] ++
        [byteK 0 c, byteK 1 c, byteK 2 c, byteK 3 c] ++ List.replicate 116 0x00 := by
  rfl

@[simp] theorem superPayload_length (c : Word) : (superPayload c).length = 128 := by
  simp [superPayload]

/-- The mask test of a region start is divisibility by `Q`. -/
theorem mask_eq_zero_iff (v : Word) : v &&& 0x3FFFF = 0 ↔ v.toNat % 0x40000 = 0 := by
  have h : (v &&& 0x3FFFF).toNat = v.toNat % 0x40000 := by
    rw [BitVec.toNat_and]; exact Nat.and_two_pow_sub_one_eq_mod v.toNat 18
  constructor
  · intro e; rw [← h, e]; rfl
  · intro e; apply BitVec.eq_of_toNat_eq; rw [h, e]; rfl

/-- The mask test of a block address is divisibility by 128. -/
theorem block_mask_eq_zero_iff (v : Word) : v &&& 0x7F = 0 ↔ v.toNat % 128 = 0 := by
  have h : (v &&& 0x7F).toNat = v.toNat % 128 := by
    rw [BitVec.toNat_and]; exact Nat.and_two_pow_sub_one_eq_mod v.toNat 7
  constructor
  · intro e; rw [← h, e]; rfl
  · intro e; apply BitVec.eq_of_toNat_eq; rw [h, e]; rfl

/-! ### Single events -/

/-- A fault taken by the handler that examines an event's byte. -/
theorem fault_of_examining {c : FaultClass} {s : State} {r : Result}
    (h : r = .next (raiseFault c (examining s))) : ∃ t, r = .next t ∧ FaultTaken c s t :=
  ⟨_, h, by rw [raiseFault_examining]; exact raiseFault_taken c s⟩

/-- A frame issued while an event is examined is a frame issued from the state before it. -/
theorem issue_examining (op : BitVec 6) (arg : Word) (p : Phase) (s : State) :
    issue op arg p (examining s) = s.frameIssued (buildFrame op arg) p := by
  unfold examining; split <;> rfl

/-- In mode Idle an event goes to the phase's handler. -/
theorem byteEvent_idle {s : State} (rx : Byte) (hs : s.started = true) (hf : s.inFlight = true)
    (hm : s.mode = .idle) : byteEvent rx s = phaseDispatch rx { s with inFlight := false } := by
  rw [byteEvent_eq rx hs hf]; simp only [dispatchEvent, hm]

/-! ### The read packet -/

/-- The 12 bytes of the three copies. -/
theorem metadata_copies (a0 a1 a2 a3 b0 b1 b2 b3 c0 c1 c2 c3 : Byte) {s : State}
    (hs : s.started = true) (hf : s.inFlight = true) (hp : s.phase = .readMetadataBlock)
    (hm : s.mode = .idle) (h0 : s.step = 0) :
    byteEvents [a0, a1, a2, a3, b0, b1, b2, b3, c0, c1, c2, c3] s = .next
      { s with
        cursor := be32 a0 a1 a2 a3, cursorAlt := be32 b0 b1 b2 b3, metaC := be32 c0 c1 c2 c3
        step := 12, outs := s.outs ++ List.replicate 12 (.transmit 0xFF) } := by
  simp only [byteEvents]
  cases s; simp only at hs hf hp hm h0; subst hs hf hp hm h0
  simp [byteEvent, dispatchEvent, phaseDispatch, handleReadMetadataBlock, captureByte,
    countPacketByte, readPacketLen, transmit, idleTx, be32_shift, List.replicate]

/-- The bytes after the three copies but for the last: counted, never read. -/
theorem metadata_padding (bytes : List Byte) : ∀ {s : State}, s.started = true →
    s.inFlight = true → s.phase = .readMetadataBlock → s.mode = .idle → 12 ≤ s.step.toNat →
    s.step.toNat + bytes.length < 130 →
    byteEvents bytes s = .next
      { s with
        step := s.step + BitVec.ofNat 8 bytes.length
        outs := s.outs ++ List.replicate bytes.length (.transmit 0xFF) } := by
  induction bytes with
  | nil => intro s _ _ _ _ _ _; simp [byteEvents]
  | cons b bs ih =>
    intro s hs hf hp hm h12 hl
    simp only [List.length_cons] at hl
    have hstep : byteEvent b s = .next
        { s with step := s.step + 1, outs := s.outs ++ [.transmit 0xFF] } := by
      rw [byteEvent_idle b hs hf hm]
      have h1 : ¬ s.step ≤ 3 := by bv_omega
      have h2 : ¬ s.step ≤ 7 := by bv_omega
      have h3 : ¬ s.step ≤ 11 := by bv_omega
      have h4 : ¬ s.step + 1 = readPacketLen := by unfold readPacketLen; bv_omega
      simp only [phaseDispatch, hp, handleReadMetadataBlock, captureByte, h1, h2, h3, if_false,
        countPacketByte, h4, transmit]
      rw [← hf]; rfl
    rw [byteEvents, hstep, andThen_of_next, ih]
    · simp only [List.length_cons, List.append_assoc, List.replicate_succ, List.singleton_append,
        BitVec.ofNat_add]
      rw [BitVec.add_assoc, BitVec.add_comm (BitVec.ofNat 8 bs.length)]; rfl
    all_goals first | assumption | (dsimp only; bv_omega)

/-! ### The write packet -/

/-- One payload byte of a data block, scripted. -/
theorem data_byte (rx b : Byte) {s : State} (hs : s.started = true) (hf : s.inFlight = true)
    (hp : s.phase = .writing) (hm : s.mode = .idle) (hv : s.variant = .data)
    (h1 : 1 ≤ s.step.toNat) (h2 : s.step.toNat ≤ 128) {rest : List PayloadAnswer}
    (ha : s.payload = ⟨true, b⟩ :: rest) :
    byteEvent rx s = .next
      { s with
        step := s.step + 1, payload := rest
        pending := s.pending.map fun w => { w with data := w.data ++ [b] }
        outs := s.outs ++ [.transmit b] } := by
  have h0 : ¬ s.step = 0 := by bv_omega
  have h3 : s.step ≤ 128 := by bv_omega
  simp only [byteEvent_idle rx hs hf hm, phaseDispatch, hp, handleWriting, if_neg h0,
    handleWritingPacket, if_pos h3, hv, sendPayloadByte, transmit, nextAnswer, takeAnswer, ha,
    dataByte, if_true]
  rw [← hf]

/-- A run of payload bytes of a data block, scripted. -/
theorem data_bytes (p : List Byte) : ∀ {s : State} (events : List Byte),
    events.length = p.length → s.started = true → s.inFlight = true → s.phase = .writing →
    s.mode = .idle → s.variant = .data → 1 ≤ s.step.toNat → s.step.toNat + p.length ≤ 129 →
    ∀ rest, s.payload = p.map (fun b => ⟨true, b⟩) ++ rest →
    byteEvents events s = .next
      { s with
        step := s.step + BitVec.ofNat 8 p.length, payload := rest
        pending := s.pending.map fun w => { w with data := w.data ++ p }
        outs := s.outs ++ p.map .transmit } := by
  induction p with
  | nil =>
    intro s events hl _ _ _ _ _ _ _ rest h
    obtain rfl := List.length_eq_zero_iff.mp hl
    cases s; simp at h; subst h; simp [byteEvents]
  | cons b bs ih =>
    intro s events he hs hf hp hm hv h1 hl rest h
    obtain ⟨x, xs, rfl, hx⟩ := List.length_eq_succ_iff.mp he
    simp only [List.length_cons] at hl
    rw [byteEvents, data_byte x b hs hf hp hm hv h1 (by omega) h, andThen_of_next,
      ih xs hx (by exact hs) (by exact hf) (by exact hp) (by exact hm) (by exact hv)
        (by dsimp only; bv_omega) (by dsimp only; bv_omega) rest rfl]
    simp only [List.length_cons, List.append_assoc, List.map_cons, List.singleton_append,
      BitVec.ofNat_add, Option.map_map, Function.comp_def]
    rw [BitVec.add_assoc, BitVec.add_comm (BitVec.ofNat 8 bs.length)]; rfl

/-- One payload byte of the metadata block. -/
theorem super_byte (rx : Byte) (k : Nat) {s : State} (hs : s.started = true)
    (hf : s.inFlight = true) (hp : s.phase = .writing) (hm : s.mode = .idle)
    (hv : s.variant = .super) (hk : k < 128) (hst : s.step = BitVec.ofNat 8 (k + 1)) :
    byteEvent rx s = .next
      { s with
        step := s.step + 1
        pending := s.pending.map fun w => { w with data := w.data ++ [superByte k s.cursor] }
        outs := s.outs ++ [.transmit (superByte k s.cursor)] } := by
  have h0 : ¬ s.step = 0 := by
    rw [hst]; intro h; have := congrArg BitVec.toNat h; simp at this; omega
  have h1 : s.step ≤ 128 := by rw [hst, BitVec.le_def]; simp; omega
  have h2 : s.step.toNat - 1 = k := by rw [hst]; simp; omega
  simp only [byteEvent_idle rx hs hf hm, phaseDispatch, hp, handleWriting, if_neg h0,
    handleWritingPacket, if_pos h1, hv, sendPayloadByte, transmit, h2]
  rw [← hf]

/-- A run of payload bytes of the metadata block. -/
theorem super_bytes (n : Nat) : ∀ {s : State} (events : List Byte),
    events.length = n → s.started = true → s.inFlight = true → s.phase = .writing →
    s.mode = .idle → s.variant = .super → ∀ k, s.step = BitVec.ofNat 8 (k + 1) → k + n ≤ 128 →
    byteEvents events s = .next
      { s with
        step := BitVec.ofNat 8 (k + n + 1)
        pending := s.pending.map fun w =>
          { w with data := w.data ++ (List.range' k n).map (superByte · s.cursor) }
        outs := s.outs ++
          (List.range' k n).map (fun j => .transmit (superByte j s.cursor)) } := by
  induction n with
  | zero =>
    intro s events hl _ _ _ _ _ k hk _
    obtain rfl := List.length_eq_zero_iff.mp hl
    cases s; simp at hk; subst hk; simp [byteEvents]
  | succ n ih =>
    intro s events he hs hf hp hm hv k hk hl
    obtain ⟨x, xs, rfl, hx⟩ := List.length_eq_succ_iff.mp he
    rw [byteEvents, super_byte x k hs hf hp hm hv (by omega) hk, andThen_of_next,
      ih xs hx (by exact hs) (by exact hf) (by exact hp) (by exact hm) (by exact hv) (k + 1)
        (by dsimp only; rw [hk]; simp [BitVec.ofNat_add]) (by omega)]
    simp only [List.range'_succ, List.map_cons, List.append_assoc, List.singleton_append,
      Option.map_map, Function.comp_def]
    rw [show k + 1 + n + 1 = k + (n + 1) + 1 by omega]

/-- The two fillers and the completion of the packet. -/
theorem packet_tail (x y z : Byte) {s : State} (hs : s.started = true) (hf : s.inFlight = true)
    (hp : s.phase = .writing) (hm : s.mode = .idle) (h : s.step = 129) :
    byteEvents [x, y, z] s = .next
      { s with
        phase := .awaitWriteBusy, step := 0
        outs := s.outs ++
          [.transmit Config.fillerByte, .transmit Config.fillerByte, .transmit 0xFF] } := by
  cases s; simp only at hs hf hp hm h; subst hs hf hp hm h
  simp [byteEvents, byteEvent, dispatchEvent, phaseDispatch, handleWriting, handleWritingPacket,
    transmit, idleTx]

/-- The 131 events of a packet: the payload's and the last three. -/
theorem split_packet {events : List Byte} (h : events.length = 131) :
    ∃ a x y z, events = a ++ [x, y, z] ∧ a.length = 128 := by
  refine ⟨events.take 128, events[128], events[129], events[130], ?_, by simp [h]⟩
  apply List.ext_getElem (by simp [h])
  intro i h1 h2
  rw [List.getElem_append]
  split
  · simp
  · have : i = 128 ∨ i = 129 ∨ i = 130 := by simp at *; omega
    rcases this with rfl | rfl | rfl <;> simp [h]

/-- The whole packet of a data block whose payload is scripted. -/
theorem data_packet (events p : List Byte) {s : State} (he : events.length = 131)
    (hs : s.started = true) (hf : s.inFlight = true) (hp : s.phase = .writing)
    (hm : s.mode = .idle) (h1 : s.step = 1) (hv : s.variant = .data) (hl : p.length = 128)
    (rest : List PayloadAnswer) (h : s.payload = p.map (fun b => ⟨true, b⟩) ++ rest) :
    byteEvents events s = .next
      { s with
        phase := .awaitWriteBusy, step := 0, payload := rest
        pending := s.pending.map fun w => { w with data := w.data ++ p }
        outs := s.outs ++ p.map .transmit ++
          [.transmit Config.fillerByte, .transmit Config.fillerByte, .transmit 0xFF] } := by
  obtain ⟨a, x, y, z, rfl, ha⟩ := split_packet he
  rw [byteEvents_append, data_bytes p a (by omega) hs hf hp hm hv (by rw [h1]; decide)
    (by rw [h1, hl]; decide) rest h, andThen_of_next, packet_tail]
  all_goals first | assumption | (dsimp only; rw [h1, hl]; rfl)

/-- The whole packet of the metadata block. -/
theorem super_packet (events : List Byte) {s : State} (he : events.length = 131)
    (hs : s.started = true) (hf : s.inFlight = true) (hp : s.phase = .writing)
    (hm : s.mode = .idle) (h1 : s.step = 1) (hv : s.variant = .super) :
    byteEvents events s = .next
      { s with
        phase := .awaitWriteBusy, step := 0
        pending := s.pending.map fun w => { w with data := w.data ++ superPayload s.cursor }
        outs := s.outs ++ (superPayload s.cursor).map .transmit ++
          [.transmit Config.fillerByte, .transmit Config.fillerByte, .transmit 0xFF] } := by
  obtain ⟨a, x, y, z, rfl, ha⟩ := split_packet he
  rw [byteEvents_append, super_bytes 128 a ha hs hf hp hm hv 0 h1 (by omega), andThen_of_next,
    packet_tail]
  · simp only [superPayload, List.range_eq_range', List.map_map, Function.comp_def]
  all_goals first | assumption | rfl

end Sys2Proof.Machine
end

