-- ==== Sys2Proof/Laws/PerInstr.lean ====
section
/-! SUPPORT. Statements made once per constructor of `Instr`. -/

namespace Sys2Proof.Laws.EncodedLength

/-- A well-formed row's code has the row's number of bytes on the bus (R100, R108, R113, R114); a host
operation has none (R121). -/
def Statement (i : Instr) : Prop :=
  i.wf = true →
    match encode i with
    | .wire bytes => wireLength i = some bytes.length
    | .init => wireLength i = none
    | .ev _ => wireLength i = none
    | .rw _ => wireLength i = none
    | .pay _ => False

theorem cmd0 : Statement .cmd0 := fun _ => rfl

theorem cmd8 : Statement .cmd8 := fun _ => rfl

theorem cmd1 : Statement .cmd1 := fun _ => rfl

theorem cmd16 : Statement .cmd16 := fun _ => rfl

theorem cmd17 : Statement .cmd17 := fun _ => rfl

theorem cmd24 (addr : Word) : Statement (.cmd24 addr) := fun _ => rfl

theorem cmd13 : Statement .cmd13 := fun _ => rfl

theorem dataTokenOut : Statement .dataTokenOut := fun _ => rfl

theorem dataPacketOut (payload : List Byte) : Statement (.dataPacketOut payload) := fun h => by
  have h' : payload.length = 128 := by simpa [Instr.wf] using h
  simp [encode, wireLength, packetBytes, h']

theorem idleOut : Statement .idleOut := fun _ => rfl

theorem r1Idle : Statement .r1Idle := fun _ => rfl

theorem r1Ready : Statement .r1Ready := fun _ => rfl

theorem cmd8Echo : Statement .cmd8Echo := fun _ => rfl

theorem cmd13Status : Statement .cmd13Status := fun _ => rfl

theorem readTokenIn : Statement .readTokenIn := fun _ => rfl

theorem tokenWaitIn : Statement .tokenWaitIn := fun _ => rfl

theorem readPacketIn (bytes : List Byte) : Statement (.readPacketIn bytes) := fun h => by
  have h' : bytes.length = 130 := by simpa [Instr.wf] using h
  simp [encode, wireLength, h']

theorem dataAcceptIn (high : BitVec 4) : Statement (.dataAcceptIn high) := fun _ => rfl

theorem busyIn : Statement .busyIn := fun _ => rfl

theorem responseWaitIn : Statement .responseWaitIn := fun _ => rfl

theorem initializeOp : Statement .initializeOp := fun _ => rfl

theorem onByteTransferred (rx : Byte) : Statement (.onByteTransferred rx) := fun _ => rfl

theorem requestWrite (available : Bool) : Statement (.requestWrite available) := fun _ => rfl

end Sys2Proof.Laws.EncodedLength
end

