-- ==== Sys2Proof/Tests/Slice0.lean ====
section
/-! SUPPORT. The model's own tests: well-formedness, decoding of words written out from the spec, one step of each family with the results of 95_test_vectors.md, and a witness for the hypotheses of every statement. -/

namespace Sys2Proof.Tests

open Sys2Proof Sys2Proof.Machine

/-! ### States for the tests -/

/-- A selected block at a phase, with an exchange in flight and nothing reported. -/
def stateAt (p : Phase) (m : Mode) (step : Byte) : State :=
  { State.reset with phase := p, mode := m, step := step, selected := true, outs := [] }

/-- Paused in Ready at a cursor. -/
def readyAt (cursor : Word) : State :=
  { State.reset with
    phase := .ready, step := 0, cursor := cursor, selected := true, inFlight := false, outs := [] }

/-- Before the first `initialize`. -/
def powerUp : State := { State.reset with started := false, inFlight := false, outs := [] }

/-- Writing, at a packet position, with the device's write under way. -/
def writingAt (v : Variant) (step : Byte) (cursor : Word) : State :=
  { stateAt .writing .idle step with variant := v, cursor := cursor, pending := some ⟨0, []⟩ }

/-- The metadata block of region 2 is written and its first status byte received. -/
def superStatus : State :=
  { stateAt .awaitStatus .idle 1 with
    variant := .super, cursor := 0x00080000
    pending := some ⟨0, superPayload 0x00080000⟩
    mem := Memory.writeBlock [] 0 (superPayload 0x00080000) }

/-- What a test looks at: the phase, the step counter and the bytes reported. -/
def seen (r : Result) : Option (Phase × Byte × List StepOutcome) :=
  r.next?.map fun t => (t.phase, t.step, t.outs)

/-! ### Well-formedness: each check refuses an ill-formed term -/

theorem test_wf_short_payload :
    Instr.wf (.dataPacketOut [0x41]) = false := by
  simp [Instr.wf]

theorem test_wf_long_payload :
    Instr.wf (.dataPacketOut (List.replicate 129 0)) = false := by
  simp [Instr.wf]

theorem test_wf_payload :
    Instr.wf (.dataPacketOut (List.replicate 128 0)) = true := by
  simp [Instr.wf]

theorem test_wf_short_packet :
    Instr.wf (.readPacketIn (List.replicate 129 0)) = false := by
  simp [Instr.wf]

theorem test_wf_packet :
    Instr.wf (.readPacketIn (List.replicate 130 0)) = true := by
  simp [Instr.wf]

/-! ### Decoding: words written out from the spec's encodings -/

/-- R106, R104: the seven frames as 48-bit words (V-FR-1 to V-FR-10). -/
theorem test_decode_frames :
    decodeTableWord 48 0x400000000095 = some .cmd0 ∧
    decodeTableWord 48 0x48000001AA87 = some .cmd8 ∧
    decodeTableWord 48 0x410000000000 = some .cmd1 ∧
    decodeTableWord 48 0x500000008000 = some .cmd16 ∧
    decodeTableWord 48 0x510000000000 = some .cmd17 ∧
    decodeTableWord 48 0x580007FF8000 = some (.cmd24 0x0007FF80) ∧
    decodeTableWord 48 0x4D0000000000 = some .cmd13 := by decide

/-- R107: another argument, another trailer, an unused opcode. -/
theorem test_decode_refused_frames :
    decodeTableWord 48 0x400000000195 = none ∧ decodeTableWord 48 0x400000000094 = none ∧
    decodeTableWord 48 0x580000000001 = none ∧ decodeTableWord 48 0x420000000000 = none ∧
    decodeTableWord 48 0x000000000095 = none := by decide

/-- R113, R115: the response words. -/
theorem test_decode_responses :
    decodeTableWord 8 0x01 = some .r1Idle ∧ decodeTableWord 8 0x00 = some .r1Ready ∧
    decodeTableWord 40 0x01000001AA = some .cmd8Echo ∧
    decodeTableWord 16 0x0000 = some .cmd13Status ∧
    decodeTableWord 8 0x05 = some (.dataAcceptIn 0) ∧
    decodeTableWord 8 0xF5 = some (.dataAcceptIn 0xF) := by decide

/-- R113: near misses. -/
theorem test_decode_refused_responses :
    decodeTableWord 40 0x01000002AA = none ∧ decodeTableWord 16 0x0001 = none ∧
    decodeTableWord 8 0x0B = none ∧ decodeTableWord 24 0x000000 = none := by decide

/-- R117: the shared words `0xFE` and `0xFF` by position. -/
theorem test_decode_by_position :
    decode ⟨.writing, .idle, 0⟩ (.wire [0xFE]) = .ok .dataTokenOut ∧
    decode ⟨.awaitDataToken, .idle, 0⟩ (.wire [0xFE]) = .ok .readTokenIn ∧
    decode ⟨.awaitDataToken, .idle, 0⟩ (.wire [0xFF]) = .ok .tokenWaitIn ∧
    decode ⟨.awaitWriteBusy, .idle, 1⟩ (.wire [0xFF]) = .ok .busyIn ∧
    decode ⟨.awaitStatus, .awaitingResponse, 0⟩ (.wire [0xFF]) = .ok .responseWaitIn ∧
    decode ⟨.powerOnClock, .idle, 1⟩ (.wire [0xFF]) = .ok .idleOut :=
  ⟨rfl, rfl, rfl, rfl, rfl, rfl⟩

/-- R114: any 130 bytes are a read packet. -/
theorem test_decode_read_packet :
    decode Position.afterReset (.wire (List.replicate 130 0x5A)) =
      .ok (.readPacketIn (List.replicate 130 0x5A)) := by
  simp [decode, decodeWire, List.replicate]

/-- R108: the token, the payload, two fillers. -/
theorem test_decode_write_packet :
    decode Position.afterReset
        (.wire (0xFE :: (List.replicate 128 0x41 ++ [Config.fillerByte, Config.fillerByte]))) =
      .ok (.dataPacketOut (List.replicate 128 0x41)) := by
  simp [decode, decodeWire, decodePacket, dataToken, List.replicate]

/-- R108: another token. -/
theorem test_decode_wrong_token :
    decode Position.afterReset (.wire (0xFC :: List.replicate 130 0)) = .error .notPacket := by
  simp [decode, decodeWire, decodePacket, dataToken, List.replicate]

/-- R120, R121: the host's script lines. -/
theorem test_decode_host :
    decode Position.afterReset .init = .ok .initializeOp ∧
    decode Position.afterReset (.ev 0x3C) = .ok (.onByteTransferred 0x3C) ∧
    decode Position.afterReset (.rw true) = .ok (.requestWrite true) := ⟨rfl, rfl, rfl⟩

/-! ### Fetch -/

/-- A placed word runs as the first instruction after reset: CMD0 hands `0x40` over, CMD24 `0x58`. -/
theorem test_fetch_first :
    seen (Machine.step (State.reset.withFetchWord 48 0x400000000095)) =
      some (.awaitReset, 1, [.transmit 0x40]) ∧
    seen (Machine.step (State.reset.withFetchWord 48 0x580008000000)) =
      some (.writing, 1, [.transmit 0x58]) := by decide

/-- A placed word of one byte: the idle byte, the data token, an acknowledgement. -/
theorem test_fetch_byte :
    seen (Machine.step (State.reset.withFetchWord 8 0xFF)) =
      some (.powerOnClock, 2, [.transmit 0xFF]) ∧
    seen (Machine.step (State.reset.withFetchWord 8 0xFE)) = some (.writing, 1, [.transmit 0xFE]) ∧
    seen (Machine.step (State.reset.withFetchWord 8 0x00)) =
      some (.powerOnClock, 2, [.transmit 0xFF]) := by decide

/-- R120, P1 `pay 41 42 --`: the payload source is loaded, the registers stay. -/
theorem test_pay :
    ((Result.next? (Machine.step
      { readyAt 0x00040000 with script := [.pay [⟨true, 0x41⟩, ⟨true, 0x42⟩, ⟨false, 0⟩], .rw true] })).map
      fun t => (t.phase, t.payload.length, t.script, t.outs)) =
      some (.ready, 3, [.rw true], []) := by decide

/-- A script that has ended is no step (R7). -/
theorem test_script_end : Machine.step State.reset = .refused .scriptEnded := rfl

/-! ### Outbound rows -/

/-- V-FR-1. -/
theorem test_cmd0 : seen (exec .cmd0 (stateAt .powerOnClock .idle 100)) =
    some (.awaitReset, 1, [.transmit 0x40]) := by decide

/-- V-FR-2: the frame bytes still to go. -/
theorem test_cmd8 : ((Result.next? (exec .cmd8 (stateAt .awaitReset .idle 0))).map (·.frame)) =
    some ⟨0, 0x00, 0x00, 0x01, 0xAA, 0x87⟩ := by decide

/-- V-BU-16. -/
theorem test_cmd1 : seen (exec .cmd1 (stateAt .awaitReady .idle 0)) =
    some (.awaitReady, 1, [.transmit 0x41]) := by decide

/-- V-FS-0. -/
theorem test_cmd16 : ((Result.next? (exec .cmd16 (stateAt .awaitReady .idle 0))).map (·.frame)) =
    some ⟨0, 0x00, 0x00, 0x00, 0x80, 0x00⟩ := by decide

/-- V-BU-19. -/
theorem test_cmd17 : seen (exec .cmd17 (stateAt .awaitBlockLenAck .idle 0)) =
    some (.awaitReadAck, 1, [.transmit 0x51]) := by decide

/-- V-FR-8; at another address the row is refused. -/
theorem test_cmd24 :
    ((Result.next? (exec (.cmd24 0x0007FF80) (readyAt 0x0007FF80))).map (·.frame)) =
      some ⟨0, 0x00, 0x07, 0xFF, 0x80, 0x00⟩ ∧
    exec (.cmd24 0x0007FF00) (readyAt 0x0007FF80) = .refused .unitNotDue := ⟨rfl, rfl⟩

/-- R307: while paused in Ready no event and no command but CMD24 goes out. -/
theorem test_cmd_while_paused :
    exec .cmd0 (readyAt 0) = .refused .noExchangeInFlight ∧
    exec .cmd13 (readyAt 0) = .refused .noExchangeInFlight ∧
    seen (exec (.cmd24 0) (readyAt 0x00080000)) = some (.writing, 1, [.transmit 0x58]) :=
  ⟨rfl, rfl, rfl⟩

/-- V-BW-19. -/
theorem test_cmd13 : seen (exec .cmd13 (stateAt .awaitWriteBusy .idle 1)) =
    some (.awaitStatus, 1, [.transmit 0x4D]) := by decide

/-- R181. -/
theorem test_cmd_while_sending :
    exec .cmd13 (stateAt .awaitReset .sendingCommand 3) = .refused .frameOutstanding := rfl

/-- V-BW-1. -/
theorem test_data_token_out : seen (exec .dataTokenOut (stateAt .writing .idle 0)) =
    some (.writing, 1, [.transmit 0xFE]) := by decide

/-- R111: while waiting for the response, and between the bytes of one. -/
theorem test_idle_out :
    seen (exec .idleOut (stateAt .awaitReset .awaitingResponse 0)) =
      some (.awaitReset, 0, [.transmit 0xFF]) ∧
    seen (exec .idleOut (stateAt .awaitInterfaceCheck .idle 3)) =
      some (.awaitInterfaceCheck, 4, [.transmit 0xFF]) := by decide

/-- R109: in the super variant no payload but the metadata payload. -/
theorem test_wrong_metadata_payload :
    exec (.dataPacketOut (List.replicate 128 0)) (writingAt .super 1 0x00080000) =
      .refused .unitNotDue := rfl

/-! ### Inbound rows -/

/-- V-BU-5. -/
theorem test_r1_idle : seen (exec .r1Idle (stateAt .awaitReset .awaitingResponse 0)) =
    some (.awaitInterfaceCheck, 1, [.transmit 0x48]) := by decide

/-- V-BU-17. -/
theorem test_r1_ready : seen (exec .r1Ready (stateAt .awaitReady .awaitingResponse 0)) =
    some (.awaitBlockLenAck, 1, [.transmit 0x50]) := by decide

/-- V-BU-8 to V-BU-12. -/
theorem test_cmd8_echo : seen (exec .cmd8Echo (stateAt .awaitInterfaceCheck .awaitingResponse 0)) =
    some (.awaitReady, 1,
      [.transmit 0xFF, .transmit 0xFF, .transmit 0xFF, .transmit 0xFF, .transmit 0x41]) := by decide

/-- V-BW-21, V-BW-25. -/
theorem test_cmd13_status : seen (exec .cmd13Status (stateAt .awaitStatus .awaitingResponse 0)) =
    some (.ready, 0, [.transmit 0xFF, .pause]) := by decide

/-- V-BU-27. -/
theorem test_read_token :
    seen (exec .readTokenIn { stateAt .awaitDataToken .idle 0 with waitCount := 250 }) =
      some (.readMetadataBlock, 0, [.transmit 0xFF]) := by decide

/-- V-BU-26. -/
theorem test_token_wait :
    ((Result.next? (exec .tokenWaitIn { stateAt .awaitDataToken .idle 0 with waitCount := 249 })).map
      (·.waitCount)) = some 250 := by decide

/-- V-BU-28. -/
theorem test_token_timeout :
    ((Result.next? (exec .tokenWaitIn { stateAt .awaitDataToken .idle 0 with waitCount := 250 })).map
      fun t => (t.phase, t.step, t.raised)) = some (.powerOnClock, 1, [.busTimeout]) := by decide

/-- V-BW-13, and V-BW-15 as an event. -/
theorem test_accept :
    seen (exec (.dataAcceptIn 0xE) (stateAt .awaitWriteBusy .idle 0)) =
      some (.awaitWriteBusy, 1, [.transmit 0xFF]) ∧
    seen (exec (.onByteTransferred 0x0B) (stateAt .awaitWriteBusy .idle 0)) =
      some (.powerOnClock, 1, [.transmit 0xFF]) := by decide

/-- V-BW-18. -/
theorem test_busy : seen (exec .busyIn (stateAt .awaitWriteBusy .idle 1)) =
    some (.awaitWriteBusy, 1, [.transmit 0xFF]) := by decide

/-- V-RW-1. -/
theorem test_response_wait :
    seen (exec .responseWaitIn (stateAt .awaitBlockLenAck .awaitingResponse 0)) =
      some (.awaitBlockLenAck, 0, [.transmit 0xFF]) := by decide

/-! ### Host operations and events -/

/-- V-HO-11, V-HO-2. -/
theorem test_initialize :
    seen (exec .initializeOp (readyAt 0x00080000)) = some (.powerOnClock, 1, [.transmit 0xFF]) ∧
    seen (exec .initializeOp (stateAt .powerOnClock .idle 1)) = none := by decide

/-- V-HO-3, V-HO-4. -/
theorem test_request_write :
    ((Result.next? (exec (.requestWrite true) (readyAt 0x00080080))).map
      fun t => (t.phase, t.variant, t.cursor, t.outs)) =
      some (.writing, .data, 0x00080100, [.transmit 0x58]) ∧
    ((Result.next? (exec (.requestWrite true) (readyAt 0x00080000))).map
      fun t => (t.phase, t.variant, t.cursor, t.frame.b2)) =
      some (.writing, .super, 0x00080000, 0x00) := by decide

/-- V-HO-6, V-HO-5. -/
theorem test_request_write_rejected :
    seen (exec (.requestWrite true) (stateAt .writing .idle 1)) = some (.writing, 1, [.rejected]) ∧
    seen (exec (.requestWrite false) (readyAt 0)) = some (.ready, 0, [.pause]) := by decide

/-- V-BW-26: the cursor wraps. -/
theorem test_cursor_wrap :
    ((Result.next? (exec (.requestWrite true) (readyAt 0xFFFFFF80))).map (·.cursor)) =
      some 0 := by decide

/-- V-BU-3, V-BU-4. -/
theorem test_power_on :
    seen (exec (.onByteTransferred 0x3C) (stateAt .powerOnClock .idle 99)) =
      some (.powerOnClock, 100, [.transmit 0xFF]) ∧
    seen (exec (.onByteTransferred 0xFF) (stateAt .powerOnClock .idle 100)) =
      some (.awaitReset, 1, [.transmit 0x40]) := by decide

/-- V-FS-4, V-FS-6. -/
theorem test_frame_step :
    seen (exec (.onByteTransferred 0xFF)
      { stateAt .awaitBlockLenAck .sendingCommand 4 with frame := ⟨0, 0, 0, 0, 0x80, 0⟩ }) =
      some (.awaitBlockLenAck, 5, [.transmit 0x80]) ∧
    seen (exec (.onByteTransferred 0x01) (stateAt .awaitBlockLenAck .sendingCommand 6)) =
      some (.awaitBlockLenAck, 0, [.transmit 0xFF]) := by decide

/-- V-BU-13: no `0xFF` is skipped inside the echo. -/
theorem test_echo_not_skipped :
    seen (exec (.onByteTransferred 0xFF) (stateAt .awaitInterfaceCheck .idle 4)) =
      some (.powerOnClock, 1, [.transmit 0xFF]) := by decide

/-- V-MD-2, V-MD-4. -/
theorem test_capture :
    ((Result.next? (exec (.onByteTransferred 0x04) (stateAt .readMetadataBlock .idle 1))).map
      (·.cursor)) = some 0x00000004 ∧
    ((Result.next? (exec (.onByteTransferred 0x78)
      { stateAt .readMetadataBlock .idle 7 with cursorAlt := 0x00123456 })).map
      (·.cursorAlt)) = some 0x12345678 := by decide

/-- V-MD-8, V-MD-9. -/
theorem test_recover :
    ((Result.next? (exec (.onByteTransferred 0x34)
      { stateAt .readMetadataBlock .idle 129 with
        cursor := 0x00040000, cursorAlt := 0x00040000, metaC := 0x00040000 })).map
      fun t => (t.phase, t.cursor, t.outs)) = some (.ready, 0x00080000, [.pause]) ∧
    ((Result.next? (exec (.onByteTransferred 0xFF)
      { stateAt .readMetadataBlock .idle 129 with cursor := 1, cursorAlt := 2, metaC := 3 })).map
      fun t => (t.cursor, t.raised)) = some (0x00040000, []) := by decide

/-- V-REC-4, V-REC-3, V-VAL-10. -/
theorem test_recovered_cursor :
    recoveredCursor 0x00C00000 0x12345678 0x00C00000 = 0x00C40000 ∧
    recoveredCursor 0x00000011 0x00000022 0x00000022 = 0x00040000 ∧
    validate 0xFFF80000 = 0xFFFC0000 := by decide

/-- V-BW-4, V-BW-6. -/
theorem test_super_byte :
    seen (exec (.onByteTransferred 0xFF) (writingAt .super 2 0x00080000)) =
      some (.writing, 3, [.transmit 0x08]) ∧
    seen (exec (.onByteTransferred 0xFF) (writingAt .super 13 0x00080000)) =
      some (.writing, 14, [.transmit 0x00]) := by decide

/-- V-BW-7, V-BW-8. -/
theorem test_data_byte :
    seen (exec (.onByteTransferred 0xFF)
      { writingAt .data 1 0x00080080 with payload := [⟨true, 0x41⟩] }) =
      some (.writing, 2, [.transmit 0x41]) ∧
    seen (exec (.onByteTransferred 0xFF)
      { writingAt .data 5 0x00080080 with payload := [⟨false, 0x41⟩] }) =
      some (.writing, 6, [.transmit 0x00]) := by decide

/-- V-BW-12: the byte that completes the packet is ignored. -/
theorem test_packet_end :
    seen (exec (.onByteTransferred 0xE5) (writingAt .data 131 0x00080080)) =
      some (.awaitWriteBusy, 0, [.transmit 0xFF]) := by decide

/-- V-BW-24. -/
theorem test_super_then_data :
    ((Result.next? (exec (.onByteTransferred 0x00)
      { stateAt .awaitStatus .idle 1 with variant := .super, cursor := 0x00080000 })).map
        fun t => (t.phase, t.variant, t.cursor, t.superDone, t.outs)) =
      some (.writing, .data, 0x00080080, false, [.transmit 0x58]) := by decide

/-- V-FT-2, V-BW-23. -/
theorem test_status_fault :
    ((Result.next? (exec (.onByteTransferred 0x02)
      { stateAt .awaitStatus .idle 0 with cursor := 0x00080100 })).map
      fun t => (t.phase, t.step, t.cursor, t.selected, t.raised)) =
      some (.powerOnClock, 1, 0, false, [.writeAckFailure]) ∧
    seen (exec (.onByteTransferred 0xFF) (stateAt .awaitStatus .idle 1)) =
      some (.powerOnClock, 1, [.transmit 0xFF]) := by decide

/-- V-HO-8, V-HO-9. -/
theorem test_refusals :
    exec (.onByteTransferred 0xFF) (readyAt 0) = .refused .noExchangeInFlight ∧
    exec (.requestWrite true) powerUp = .refused .beforeInitialize ∧
    exec (.onByteTransferred 0xFF) powerUp = .refused .beforeInitialize := ⟨rfl, rfl, rfl⟩

/-! ### Memory -/

/-- R76, R78: consecutive addresses, modulo 2^32, kept in order. -/
theorem test_write_wraps :
    Memory.writeBlock [] 0xFFFFFFFF [1, 2] = [(0, 2), (0xFFFFFFFF, 1)] := by decide

/-- Forgetting a byte leaves it unknown. -/
theorem test_forget : (Memory.forgetBlock [(4, 1), (5, 2), (7, 3)] 4 3) = [(7, 3)] := by decide

/-! ### Witnesses: states and operands that meet the hypotheses of each statement -/

/-- A frame half sent, its first bytes clear. -/
def sending : State := { stateAt .awaitReset .sendingCommand 6 with frame := Frame.zero }

/-- A payload of one data block. -/
def payload41 : List Byte := List.replicate 128 0x41

/-- Ready at a cursor with 128 payload bytes and one more answer waiting. -/
def readyWithPayload (cursor : Word) : State :=
  { readyAt cursor with payload := payload41.map (fun b => ⟨true, b⟩) ++ [⟨false, 0⟩] }

theorem registersOk_reset : RegistersOk State.reset := by
  constructor <;> simp [State.reset, Frame.zero, idleStepRange, Phase.held, Phase.isWrite]

theorem registersOk_readyAt {cursor : Word} (h : cursor &&& 0x7F = 0) :
    RegistersOk (readyAt cursor) := by
  constructor <;> simp [readyAt, State.reset, Frame.zero, idleStepRange, Phase.held, Phase.isWrite]
  exact h

theorem registersOk_sending : RegistersOk sending := by
  constructor <;>
    simp [sending, stateAt, State.reset, Frame.zero, Phase.held, Phase.isWrite, Phase.awaitsCommand]
  decide

theorem registersOk_awaitReset : RegistersOk (stateAt .awaitReset .awaitingResponse 0) := by
  constructor <;>
    simp [stateAt, State.reset, Frame.zero, Phase.held, Phase.isWrite, Phase.awaitsCommand]

theorem registersOk_superStatus : RegistersOk superStatus := by
  constructor <;>
    simp [superStatus, stateAt, State.reset, Frame.zero, idleStepRange, Phase.held, Phase.isWrite]

theorem deviceOk_reset : DeviceOk State.reset := by
  constructor <;> simp [State.reset, Phase.isWrite]

theorem deviceOk_superStatus : DeviceOk superStatus where
  none h := by cases h
  some _ := ⟨_, rfl, rfl⟩
  superAddr w h _ := by cases h; rfl
  dataAddr w _ h := by cases h
  superData w h _ := by
    cases h
    exact (List.take_of_length_le (Nat.le_refl (superPayload 0x00080000).length)).symm
  written w h _ := by
    cases h
    have := Memory.readBlock_writeBlock (m := []) (a := 0) (vs := superPayload 0x00080000) (by simp)
    rwa [superPayload_length] at this

theorem witness_initializeResetsOrIsRefused :
    powerUp.started = false ∧ (readyAt 0).inFlight = false ∧
    State.reset.started = true ∧ State.reset.inFlight = true := by decide

theorem witness_beforeInitialize :
    powerUp.started = false ∧ Instr.wf (.cmd24 0xFFFFFF80) = true ∧
    Instr.cmd24 0xFFFFFF80 ≠ .initializeOp := by decide

theorem witness_eventWithoutExchange :
    (readyAt 0).started = true ∧ (readyAt 0).inFlight = false ∧ RegistersOk (readyAt 0) ∧
    { stateAt .awaitReset .idle 0 with inFlight := false }.phase ≠ .ready :=
  ⟨rfl, rfl, registersOk_readyAt (by decide), by decide⟩

/-- A write under way where `initialize` or a fault abandons it, and one of its bytes. -/
theorem witness_writeAbandoned :
    { superStatus with inFlight := false }.mem.wf = true ∧
    { superStatus with inFlight := false }.pending = some ⟨0, superPayload 0x00080000⟩ ∧
    inBlock 0 127 ∧ (∃ t, exec (.onByteTransferred 0x02) superStatus = .next t) :=
  ⟨rfl, rfl, ⟨127, by decide, rfl⟩, _, rfl⟩

theorem witness_requestWriteOutsideReady :
    (stateAt .awaitStatus .idle 1).started = true ∧ (stateAt .awaitStatus .idle 1).phase ≠ .ready ∧
    { readyAt 0 with inFlight := true }.started = true ∧
    { readyAt 0 with inFlight := true }.inFlight = true := by decide

theorem witness_requestWriteInReady (c : Word) :
    (readyAt c).started = true ∧ (readyAt c).phase = .ready ∧ (readyAt c).inFlight = false ∧
    (readyAt c).superDone = false ∧ (readyAt c).cursor = c := ⟨rfl, rfl, rfl, rfl, rfl⟩

/-- The first region start, the last; the last block of a region, the last of the space. -/
theorem witness_requestWriteCursors :
    (0 : Word) &&& 0x3FFFF = 0 ∧ (0xFFFC0000 : Word) &&& 0x3FFFF = 0 ∧
    (0x0007FF80 : Word) &&& 0x3FFFF ≠ 0 ∧ (0xFFFFFF80 : Word) &&& 0x3FFFF ≠ 0 := by decide

theorem witness_requestWriteAfterMetadata :
    { readyAt 0x00080000 with superDone := true }.cursor &&& 0x3FFFF = 0 ∧
    { readyAt 0x00080000 with superDone := true }.superDone = true := by decide

theorem witness_frameIsSent :
    ∀ k ∈ ([0, 1, 5] : List Byte),
      (stateAt .awaitReset .sendingCommand k).started = true ∧
      (stateAt .awaitReset .sendingCommand k).inFlight = true ∧
      (stateAt .awaitReset .sendingCommand k).mode = .sendingCommand ∧
      (stateAt .awaitReset .sendingCommand k).step < 6 := by decide

theorem witness_frameIsSent_last :
    (stateAt .awaitReset .sendingCommand 6).mode = .sendingCommand ∧
    (stateAt .awaitReset .sendingCommand 6).step = 6 := by decide

theorem witness_issuedFrame :
    State.reset.started = true ∧ (List.replicate 6 0x3C : List Byte).length = 6 := by decide

/-- Every state `stateAt` builds has an exchange in flight. -/
theorem witness_stateAt (p : Phase) (m : Mode) (k : Byte) :
    (stateAt p m k).started = true ∧ (stateAt p m k).inFlight = true ∧ (stateAt p m k).phase = p ∧
    (stateAt p m k).mode = m ∧ (stateAt p m k).step = k := ⟨rfl, rfl, rfl, rfl, rfl⟩

/-- The positions at which the command rows run (with `witness_stateAt` for the rest). -/
theorem witness_commandRows :
    (100 : Byte) ≤ (stateAt .powerOnClock .idle 100).step ∧
    (stateAt .awaitInterfaceCheck .idle 4).step = 4 ∧
    (stateAt .awaitReady .awaitingResponse 0).mode ≠ .sendingCommand ∧
    (stateAt .awaitWriteBusy .idle 1).step ≠ 0 ∧ superStatus.variant = .super ∧
    superStatus.started = true ∧ superStatus.inFlight = true ∧ superStatus.phase = .awaitStatus ∧
    superStatus.mode = .idle ∧ superStatus.step ≠ 0 ∧ superStatus.pending.isSome = true ∧
    (0x0007FF00 : Word) ≠ (readyAt 0x0007FF80).cursor ∧
    (0x0007FF80 : Word) &&& 0x3FFFF ≠ 0 ∧ (readyAt 0x00080000).cursor &&& 0x3FFFF = 0 ∧
    (readyAt 0x00080000).superDone = false := by decide

/-- A frame byte and the trailer, and each phase that awaits a response (with `witness_stateAt`). -/
theorem witness_oneFrameOutstanding :
    sending.started = true ∧ sending.mode = .sendingCommand ∧ sending.inFlight = true ∧
    (stateAt .awaitReset .sendingCommand 5).step < 6 ∧
    (stateAt .awaitStatus .awaitingResponse 0).phase ≠ .awaitReset ∧
    (stateAt .awaitStatus .awaitingResponse 0).phase ≠ .awaitReady ∧
    (stateAt .awaitStatus .awaitingResponse 0).phase ≠ .awaitBlockLenAck ∧
    (stateAt .awaitStatus .awaitingResponse 0).phase ≠ .writing := by decide

/-- The boundaries of the positions of the idle byte (with `witness_stateAt`), and a state of a run with
a byte that hands it over. -/
theorem witness_idleAndToken :
    (stateAt .powerOnClock .idle 99).step < 100 ∧ (100 : Byte) ≤ (stateAt .powerOnClock .idle 100).step ∧
    { stateAt .awaitDataToken .idle 0 with waitCount := 249 }.waitCount < 250 ∧
    RegistersOk (stateAt .awaitReset .awaitingResponse 0) ∧
    (∃ u, exec (.onByteTransferred 0xFF) (stateAt .awaitReset .awaitingResponse 0) = .next u ∧
      u.outs = (stateAt .awaitReset .awaitingResponse 0).outs ++ [.transmit 0xFF]) ∧
    ¬ ((stateAt .awaitStatus .idle 1).phase = .writing ∧ (stateAt .awaitStatus .idle 1).step = 0) :=
  ⟨by decide, by decide, by decide, registersOk_awaitReset, ⟨_, rfl, rfl⟩, by decide⟩

theorem witness_responseWait :
    (stateAt .awaitReset .awaitingResponse 0).started = true ∧
    (stateAt .awaitReset .awaitingResponse 0).inFlight = true ∧
    (stateAt .awaitReset .awaitingResponse 0).mode = .awaitingResponse := by decide

theorem witness_powerOnClock :
    ∀ k ∈ ([1, 99, 100, 255] : List Byte),
      (stateAt .powerOnClock .idle k).started = true ∧ (stateAt .powerOnClock .idle k).inFlight = true ∧
      (stateAt .powerOnClock .idle k).phase = .powerOnClock ∧
      (stateAt .powerOnClock .idle k).mode = .idle ∧
      ((stateAt .powerOnClock .idle k).step < 100 ∨ 100 ≤ (stateAt .powerOnClock .idle k).step) := by decide

/-- Both ways a byte reaches a handler, for each phase that answers a command. -/
theorem witness_examines (p : Phase) :
    (stateAt p .idle 0).started = true ∧ (stateAt p .idle 0).inFlight = true ∧
    (stateAt p .idle 0).phase = p ∧ examines (stateAt p .idle 0) 0xFF ∧
    examines (stateAt p .awaitingResponse 0) 0x00 ∧ examines (stateAt p .awaitingResponse 0) 0x01 ∧
    examines (stateAt p .awaitingResponse 0) 0xFE :=
  ⟨rfl, rfl, rfl, .inl rfl, .inr ⟨rfl, by decide⟩, .inr ⟨rfl, by decide⟩, .inr ⟨rfl, by decide⟩⟩

/-- The echo: its first byte as a response, its last byte, and a wrong byte at each. -/
theorem witness_interfaceCheck :
    (stateAt .awaitInterfaceCheck .awaitingResponse 0).mode = .awaitingResponse ∧
    ([0x01, 0x00, 0x00, 0x01, 0xAA] : List Byte)[0]? = some 0x01 ∧
    ([0x01, 0x00, 0x00, 0x01, 0xAA] : List Byte)[0]? ≠ some 0x05 ∧
    (stateAt .awaitInterfaceCheck .idle 4).mode = .idle ∧
    (stateAt .awaitInterfaceCheck .idle 4).step.toNat = 4 ∧
    ([0x01, 0x00, 0x00, 0x01, 0xAA] : List Byte)[4]? = some 0xAA ∧
    ([0x01, 0x00, 0x00, 0x01, 0xAA] : List Byte)[4]? ≠ some 0xFF := by decide

theorem witness_wholeEcho :
    (stateAt .awaitInterfaceCheck .awaitingResponse 0).started = true ∧
    (stateAt .awaitInterfaceCheck .awaitingResponse 0).inFlight = true ∧
    (stateAt .awaitInterfaceCheck .awaitingResponse 0).phase = .awaitInterfaceCheck ∧
    (stateAt .awaitInterfaceCheck .awaitingResponse 0).mode = .awaitingResponse := by decide

theorem witness_dataTokenWait :
    ∀ n ∈ ([0, 249, 250] : List Byte),
      { stateAt .awaitDataToken .idle 0 with waitCount := n }.started = true ∧
      { stateAt .awaitDataToken .idle 0 with waitCount := n }.inFlight = true ∧
      { stateAt .awaitDataToken .idle 0 with waitCount := n }.phase = .awaitDataToken ∧
      { stateAt .awaitDataToken .idle 0 with waitCount := n }.mode = .idle ∧
      (n < 250 ∨ n = 250) := by decide

theorem witness_metadataBytes :
    ∀ k ∈ ([0, 3, 4, 7, 8, 11, 12, 128, 129] : List Byte),
      (stateAt .readMetadataBlock .idle k).started = true ∧
      (stateAt .readMetadataBlock .idle k).inFlight = true ∧
      (stateAt .readMetadataBlock .idle k).phase = .readMetadataBlock ∧
      (stateAt .readMetadataBlock .idle k).mode = .idle ∧ (k < 129 ∨ k = 129) := by decide

theorem witness_readPacket :
    (stateAt .readMetadataBlock .idle 0).started = true ∧
    (stateAt .readMetadataBlock .idle 0).inFlight = true ∧
    (stateAt .readMetadataBlock .idle 0).phase = .readMetadataBlock ∧
    (stateAt .readMetadataBlock .idle 0).mode = .idle ∧
    (stateAt .readMetadataBlock .idle 0).step = 0 ∧
    (List.replicate 118 0x5A : List Byte).length = 118 :=
  ⟨rfl, rfl, rfl, rfl, rfl, List.length_replicate⟩

theorem witness_disagreeingCopies :
    copiesDisagree (be32 0 0 0 1) (be32 0 0 0 2) (be32 0 0 0 3) = true := by decide

/-- The patterns of R233 that can occur. -/
theorem witness_recover :
    (1 : Word) = 1 ∧ (2 : Word) ≠ 1 ∧ (1 : Word) ≠ 2 ∧ (2 : Word) ≠ 3 ∧ (1 : Word) ≠ 3 := by decide

/-- Zero, misaligned by one block, the last region. -/
theorem witness_validate :
    (0x00040080 : Word) &&& 0x3FFFF ≠ 0 ∧ (0xFFFC0000 : Word) ≠ 0 ∧
    (0xFFFC0000 : Word) &&& 0x3FFFF = 0 := by decide

theorem witness_writeAck :
    (stateAt .writing .awaitingResponse 0).started = true ∧
    (stateAt .writing .awaitingResponse 0).inFlight = true ∧
    (stateAt .writing .awaitingResponse 0).phase = .writing ∧
    (stateAt .writing .awaitingResponse 0).mode = .awaitingResponse ∧
    (stateAt .writing .idle 0).mode = .idle ∧ (stateAt .writing .idle 0).step = 0 := by decide

theorem witness_superPayloadByte :
    ∀ k ∈ ([0, 11, 12, 127] : List Nat),
      (writingAt .super (BitVec.ofNat 8 (k + 1)) 0x00080000).started = true ∧
      (writingAt .super (BitVec.ofNat 8 (k + 1)) 0x00080000).inFlight = true ∧
      (writingAt .super (BitVec.ofNat 8 (k + 1)) 0x00080000).phase = .writing ∧
      (writingAt .super (BitVec.ofNat 8 (k + 1)) 0x00080000).mode = .idle ∧
      (writingAt .super (BitVec.ofNat 8 (k + 1)) 0x00080000).variant = .super ∧ k < 128 := by decide

theorem witness_dataPayloadByte :
    ∀ k ∈ ([1, 128] : List Byte),
      (writingAt .data k 0x00080080).started = true ∧
      (writingAt .data k 0x00080080).inFlight = true ∧
      (writingAt .data k 0x00080080).phase = .writing ∧
      (writingAt .data k 0x00080080).mode = .idle ∧
      (writingAt .data k 0x00080080).variant = .data ∧ 1 ≤ k ∧ k ≤ 128 ∧
      (writingAt .data k 0x00080080).payload = [] ∧
      { writingAt .data k 0x00080080 with payload := [⟨false, 7⟩] }.payload = [⟨false, 7⟩] := by
  decide

theorem witness_fillers :
    ∀ k ∈ ([129, 130, 131] : List Byte),
      (writingAt .data k 0x00080080).started = true ∧
      (writingAt .data k 0x00080080).inFlight = true ∧
      (writingAt .data k 0x00080080).phase = .writing ∧
      (writingAt .data k 0x00080080).mode = .idle ∧ ((k = 129 ∨ k = 130) ∨ k = 131) := by decide

theorem witness_packets (v : Variant) :
    (writingAt v 1 0x00080000).started = true ∧ (writingAt v 1 0x00080000).inFlight = true ∧
    (writingAt v 1 0x00080000).phase = .writing ∧ (writingAt v 1 0x00080000).mode = .idle ∧
    (writingAt v 1 0x00080000).step = 1 ∧ (writingAt v 1 0x00080000).variant = v ∧
    payload41.length = 128 := ⟨rfl, rfl, rfl, rfl, rfl, rfl, List.length_replicate⟩

theorem witness_acceptToken :
    (stateAt .awaitWriteBusy .idle 0).started = true ∧ (stateAt .awaitWriteBusy .idle 0).inFlight = true ∧
    (stateAt .awaitWriteBusy .idle 0).phase = .awaitWriteBusy ∧
    (stateAt .awaitWriteBusy .idle 0).mode = .idle ∧ (stateAt .awaitWriteBusy .idle 0).step = 0 ∧
    (0xF5 : Byte) &&& 0x0F = 0x05 ∧ (0xFF : Byte) &&& 0x0F ≠ 0x05 := by decide

theorem witness_busyPoll :
    { stateAt .awaitWriteBusy .idle 1 with pending := some ⟨0, payload41⟩ }.started = true ∧
    { stateAt .awaitWriteBusy .idle 1 with pending := some ⟨0, payload41⟩ }.inFlight = true ∧
    { stateAt .awaitWriteBusy .idle 1 with pending := some ⟨0, payload41⟩ }.step ≠ 0 ∧
    { stateAt .awaitWriteBusy .idle 1 with pending := some ⟨0, payload41⟩ }.pending =
      some ⟨0, payload41⟩ ∧
    payload41.length = 128 ∧ (stateAt .awaitWriteBusy .idle 1).pending = none ∧ (0x00 : Byte) ≠ 0xFF :=
  ⟨rfl, rfl, by decide, rfl, List.length_replicate, rfl, by decide⟩

theorem witness_status (v : Variant) :
    { stateAt .awaitStatus .awaitingResponse 0 with variant := v }.started = true ∧
    { stateAt .awaitStatus .awaitingResponse 0 with variant := v }.inFlight = true ∧
    { stateAt .awaitStatus .awaitingResponse 0 with variant := v }.phase = .awaitStatus ∧
    { stateAt .awaitStatus .awaitingResponse 0 with variant := v }.mode = .awaitingResponse ∧
    { stateAt .awaitStatus .idle 1 with variant := v }.mode = .idle ∧
    { stateAt .awaitStatus .idle 1 with variant := v }.step ≠ 0 ∧
    { stateAt .awaitStatus .idle 1 with variant := v }.variant = v :=
  ⟨rfl, rfl, rfl, rfl, rfl, by cases v <;> decide, rfl⟩

theorem witness_faultTable :
    RegistersOk (stateAt .awaitReset .awaitingResponse 0) ∧
    (∃ t, exec (.onByteTransferred 0x02) (stateAt .awaitReset .awaitingResponse 0) = .next t) ∧
    raisedBy (stateAt .awaitReset .awaitingResponse 0) 0x02 = some .bringupMismatch :=
  ⟨registersOk_awaitReset, ⟨_, rfl⟩, rfl⟩

theorem witness_everyByte :
    RegistersOk sending ∧ sending.inFlight = true ∧ RegistersOk superStatus ∧
    superStatus.inFlight = true := ⟨registersOk_sending, rfl, registersOk_superStatus, rfl⟩

theorem witness_ignoredBytes :
    sending.mode = .sendingCommand ∧ State.reset.mode = .idle ∧
    State.reset.phase = .powerOnClock ∧ (stateAt .writing .idle 131).mode = .idle ∧
    (stateAt .writing .idle 131).phase = .writing ∧ (stateAt .writing .idle 131).step ≠ 0 ∧
    (stateAt .readMetadataBlock .idle 12).phase = .readMetadataBlock ∧
    (12 : Byte) ≤ (stateAt .readMetadataBlock .idle 12).step ∧
    (12 : Byte) ≤ (stateAt .readMetadataBlock .idle 129).step := by decide

theorem witness_waits :
    (stateAt .awaitReady .awaitingResponse 0).started = true ∧
    (stateAt .awaitReady .awaitingResponse 0).inFlight = true ∧
    (stateAt .awaitReady .awaitingResponse 0).phase = .awaitReady ∧
    (stateAt .awaitReady .awaitingResponse 0).mode = .awaitingResponse ∧
    (stateAt .awaitReady .awaitingResponse 0).step = 0 ∧
    (stateAt .awaitReady .awaitingResponse 0).frame = ⟨0, 0, 0, 0, 0, 0⟩ ∧
    (stateAt .awaitWriteBusy .idle 1).mode = .idle ∧ (stateAt .awaitWriteBusy .idle 1).step ≠ 0 ∧
    (readyAt 0).phase = .ready ∧ (readyAt 0).inFlight = false := by decide

theorem witness_bringUpReentered :
    RegistersOk { superStatus with script := [.ev 0x01] } ∧
    superStatus.phase.isBringUp = false ∧ ScriptOp.isHostOrDevice (.ev 0x01) = true ∧
    ∃ t, Machine.step { superStatus with script := [.ev 0x01] } = .next t ∧
      t.phase.isBringUp = true :=
  ⟨{ registersOk_superStatus with }, rfl, rfl, _, rfl, rfl⟩

theorem witness_cursorAdvances :
    RegistersOk { superStatus with script := [.ev 0x00] } ∧
    ∃ t, Machine.step { superStatus with script := [.ev 0x00] } = .next t ∧
      t.cursor = superStatus.cursor + 128 :=
  ⟨{ registersOk_superStatus with }, _, rfl, rfl⟩

theorem witness_metadataBefore :
    RegistersOk superStatus ∧ DeviceOk superStatus ∧ superStatus.phase = .awaitStatus ∧
    ∃ t, exec (.onByteTransferred 0x00) superStatus = .next t ∧ t.phase = .writing :=
  ⟨registersOk_superStatus, deviceOk_superStatus, rfl, _, rfl, rfl⟩

theorem witness_writtenMetadata :
    (0 : Word) &&& 0x3FFFF = 0 ∧ (0xFFFC0000 : Word) &&& 0x3FFFF = 0 := by decide

theorem witness_environmentRows :
    RegistersOk superStatus ∧ DeviceOk superStatus ∧ (∃ t, exec .r1Ready superStatus = .next t) ∧
    ∃ t, exec (.cmd24 0x00080000) superStatus = .next t :=
  ⟨registersOk_superStatus, deviceOk_superStatus, ⟨_, rfl⟩, _, rfl⟩

theorem witness_stepKeeps :
    RegistersOk { State.reset with script := [.ev 0x3C] } ∧
    DeviceOk { State.reset with script := [.ev 0x3C] } ∧
    { State.reset with script := [.ev 0x3C] }.mem.wf = true ∧
    ∃ t, Machine.step { State.reset with script := [.ev 0x3C] } = .next t :=
  ⟨{ registersOk_reset with }, { deviceOk_reset with }, rfl, _, rfl⟩

theorem witness_bringUp :
    State.reset.started = true ∧ State.reset.phase = .powerOnClock ∧ State.reset.mode = .idle ∧
    State.reset.step = 1 ∧ State.reset.inFlight = true ∧
    (List.replicate 100 0x3C : List Byte).length = 100 ∧
    (List.replicate 6 0x3C : List Byte).length = 6 ∧
    (List.replicate 118 0x3C : List Byte).length = 118 :=
  ⟨rfl, rfl, rfl, rfl, rfl, List.length_replicate, List.length_replicate, List.length_replicate⟩

theorem witness_cycles :
    RegistersOk (readyWithPayload 0x0007FF80) ∧ RegistersOk (readyWithPayload 0x00080000) ∧
    RegistersOk (readyWithPayload 0) ∧ (readyWithPayload 0).cursor &&& 0x3FFFF = 0 ∧
    (readyWithPayload 0x0007FF80).phase = .ready ∧
    (readyWithPayload 0x0007FF80).cursor &&& 0x3FFFF ≠ 0 ∧
    (readyWithPayload 0x00080000).cursor &&& 0x3FFFF = 0 ∧ payload41.length = 128 ∧
    (readyWithPayload 0x0007FF80).payload = payload41.map (fun b => ⟨true, b⟩) ++ [⟨false, 0⟩] ∧
    (List.replicate 131 0xFF : List Byte).length = 131 ∧ (0x00 : Byte) ≠ 0xFF :=
  ⟨{ registersOk_readyAt (cursor := 0x0007FF80) (by decide) with },
    { registersOk_readyAt (cursor := 0x00080000) (by decide) with },
    { registersOk_readyAt (cursor := 0) (by decide) with }, by decide, rfl, by decide, by decide,
    List.length_replicate, rfl, List.length_replicate, by decide⟩

theorem witness_stepRuns :
    { State.reset with script := [.wire [0x01]] }.script = [.wire [0x01]] ∧
    decode ⟨.powerOnClock, .idle, 1⟩ (.wire [0x01]) = .ok .r1Idle ∧ Instr.wf .r1Idle = true ∧
    { State.reset with script := [.pay [⟨false, 0⟩]] }.script = [.pay [⟨false, 0⟩]] :=
  ⟨rfl, rfl, rfl, rfl⟩

theorem witness_decodeOfEncode :
    Instr.wf (.dataAcceptIn 0xF) = true ∧ readableAt (.dataAcceptIn 0xF) Position.afterReset = true ∧
    readableAt .busyIn ⟨.awaitWriteBusy, .idle, 1⟩ = true := by decide

end Sys2Proof.Tests
end

/-! ## What a step runs, and the big-endian helpers as numbers -/

namespace Sys2Proof.Machine

/-! ### One step, by the line it takes (R7, R120) -/

/-- A `pay` line loads the payload source. -/
theorem step_pay {s : State} {answers : List PayloadAnswer} {rest : List ScriptOp}
    (hs : s.script = .pay answers :: rest) :
    step s = .next ((s.taking rest).supplied answers) := by
  simp only [step, hs]

/-- A line that decodes is run as the row it decodes to. It is no `pay` line: the decoder rejects those. -/
theorem step_of_decode {s : State} {op : ScriptOp} {rest : List ScriptOp} {i : Instr}
    (hs : s.script = op :: rest) (hi : decode s.position op = .ok i) :
    step s = exec i (s.taking rest) := by
  cases op with
  | pay answers => cases hi
  | init | ev rx | rw available | wire bytes => simp only [step, hs, hi]

/-- Settles O56: by the rule of a decoded line and the rule of a `pay` line. -/
theorem stepRunsTheDecodedInstruction : Obligations.StepRunsTheDecodedInstruction :=
  ⟨fun _ _ _ _ hs hi _ => step_of_decode hs hi, fun _ _ _ hs => step_pay hs⟩

/-! ### Bytes and words as numbers (R13) -/

/-- The number of two vectors put together: the first counts in units of the second's range. -/
theorem toNat_append_eq_add {m n : Nat} (x : BitVec m) (y : BitVec n) :
    (x ++ y).toNat = x.toNat * 2 ^ n + y.toNat := by
  rw [BitVec.toNat_append, ← Nat.shiftLeft_add_eq_or_of_lt y.isLt, Nat.shiftLeft_eq]

theorem be32_toNat (b0 b1 b2 b3 : Byte) :
    (be32 b0 b1 b2 b3).toNat =
      b0.toNat * 2 ^ 24 + b1.toNat * 2 ^ 16 + b2.toNat * 2 ^ 8 + b3.toNat := by
  simp only [be32, toNat_append_eq_add]
  omega

theorem toNat_extractLsb'_eq_div_mod {w : Nat} (v : BitVec w) (start len : Nat) :
    (v.extractLsb' start len).toNat = v.toNat / 2 ^ start % 2 ^ len := by
  rw [BitVec.extractLsb'_toNat, Nat.shiftRight_eq_div_pow]

theorem byteK_zero_toNat (v : Word) : (byteK 0 v).toNat = v.toNat / 2 ^ 24 := by
  have topByte : v.toNat / 2 ^ 24 < 2 ^ 8 := Nat.div_lt_of_lt_mul v.isLt
  rw [byteK, toNat_extractLsb'_eq_div_mod, Nat.mod_eq_of_lt topByte]

theorem byteK_one_toNat (v : Word) : (byteK 1 v).toNat = v.toNat / 2 ^ 16 % 2 ^ 8 :=
  toNat_extractLsb'_eq_div_mod v 16 8

theorem byteK_two_toNat (v : Word) : (byteK 2 v).toNat = v.toNat / 2 ^ 8 % 2 ^ 8 :=
  toNat_extractLsb'_eq_div_mod v 8 8

theorem byteK_three_toNat (v : Word) : (byteK 3 v).toNat = v.toNat % 2 ^ 8 :=
  (toNat_extractLsb'_eq_div_mod v 0 8).trans (by rw [Nat.pow_zero, Nat.div_one])

/-- Settles O58: the numbers by `be32_toNat` and a lemma per byte, the round trips by
`byteK_be32` and `be32_byteK`. -/
theorem bigEndianHelpersUndoEachOther : Obligations.BigEndianHelpersUndoEachOther :=
  ⟨fun b0 b1 b2 b3 => ⟨be32_toNat b0 b1 b2 b3, byteK_be32 b0 b1 b2 b3⟩,
    fun v => ⟨byteK_zero_toNat v, byteK_one_toNat v, byteK_two_toNat v, byteK_three_toNat v,
      be32_byteK v⟩⟩

end Sys2Proof.Machine

/-! ## The registers: what every step keeps (10_state.md) -/

namespace Sys2Proof.Machine

/-! ### The reset table, the status outputs, what is refused before first use -/

/-- Settles O1: register by register. -/
theorem resetHoldsTheTableValues : Obligations.ResetHoldsTheTableValues :=
  ⟨rfl, rfl, rfl, rfl, rfl, rfl, rfl, rfl, rfl, rfl, rfl, rfl⟩

theorem byteEvent_beforeInitialize {s : State} (rx : Byte) (hs : s.started = false) :
    byteEvent rx s = .refused .beforeInitialize := by
  simp only [byteEvent, hs, if_true]

theorem byteEvents_beforeInitialize {s : State} {bytes : List Byte} (hs : s.started = false)
    (hb : bytes ≠ []) : byteEvents bytes s = .refused .beforeInitialize := by
  cases bytes with
  | nil => exact absurd rfl hb
  | cons rx rest => rw [byteEvents, byteEvent_beforeInitialize rx hs]; rfl

theorem handOver_beforeInitialize {s : State} (due : Bool) (rx : Byte) (hs : s.started = false) :
    handOver due rx s = .refused .beforeInitialize := by
  simp only [handOver, hs, if_true]

theorem execCmd24_beforeInitialize {s : State} (addr : Word) (hs : s.started = false) :
    execCmd24 addr s = .refused .beforeInitialize := by
  simp only [execCmd24, hs, if_true]

theorem execIdleOut_beforeInitialize {s : State} (hs : s.started = false) :
    execIdleOut s = .refused .beforeInitialize := by
  unfold execIdleOut
  split
  · exact handOver_beforeInitialize _ _ hs
  · exact byteEvent_beforeInitialize _ hs

theorem execDataPacketOut_beforeInitialize {s : State} (payload : List Byte)
    (hs : s.started = false) : execDataPacketOut payload s = .refused .beforeInitialize := by
  unfold execDataPacketOut
  rw [if_neg (by simp [hs])]
  exact handOver_beforeInitialize _ _ hs

theorem execRequestWrite_beforeInitialize {s : State} (available : Bool) (hs : s.started = false) :
    execRequestWrite available s = .refused .beforeInitialize := by
  simp only [execRequestWrite, hs, if_true]

/-- Settles O3: every row is an event, a run of events, a unit handed over, or `request_write`, and
each of these is refused. -/
theorem beforeInitializeAllElseIsRefused : Obligations.BeforeInitializeAllElseIsRefused := by
  intro s i hs hw hi
  have event (rx : Byte) : byteEvent rx s = .refused .beforeInitialize :=
    byteEvent_beforeInitialize rx hs
  have out (due : Bool) (rx : Byte) : handOver due rx s = .refused .beforeInitialize :=
    handOver_beforeInitialize due rx hs
  cases i with
  | initializeOp => exact absurd rfl hi
  | cmd0 | cmd8 | cmd16 | cmd17 | cmd13 | dataTokenOut => exact out _ _
  | cmd1 =>
    simp only [exec, execCmd1]
    split
    · exact out _ _
    · exact out _ _
  | cmd24 addr => exact execCmd24_beforeInitialize addr hs
  | dataPacketOut payload => exact execDataPacketOut_beforeInitialize payload hs
  | idleOut => exact execIdleOut_beforeInitialize hs
  | r1Idle | r1Ready | readTokenIn | tokenWaitIn | dataAcceptIn | busyIn | responseWaitIn
  | onByteTransferred => exact event _
  | cmd8Echo | cmd13Status => exact byteEvents_beforeInitialize hs (List.cons_ne_nil _ _)
  | readPacketIn bytes =>
    refine byteEvents_beforeInitialize hs ?_
    rintro rfl
    cases hw
  | requestWrite available => exact execRequestWrite_beforeInitialize available hs

theorem phase_code_eq_nine_iff (p : Phase) : p.code = 9 ↔ p = .ready := by
  cases p <;> decide

theorem isReady_iff (s : State) : s.isReady = true ↔ s.phase = .ready ∧ s.inFlight = false := by
  simp [State.isReady]

/-- Settles O47: the encodings constructor by constructor, `status.ready` by `isReady_iff`. -/
theorem statusOutputsReadTheRegisters : Obligations.StatusOutputsReadTheRegisters := by
  intro s
  have ready : s.isReady = true ↔ s.phase.code = 9 ∧ s.inFlight = false := by
    rw [isReady_iff, phase_code_eq_nine_iff]
  refine ⟨?_, ?_, ?_, rfl, rfl, rfl, ready⟩
  · change s.phase.code = _
    cases s.phase <;> rfl
  · change s.variant.code = _
    cases s.variant <;> rfl
  · change s.mode.code = _
    cases s.mode <;> rfl

/-! ### What a phase's handler can do -/

/-- What a phase's handler can do to the state, said once: each outcome of the handlers of phases 1 to
12 (R201 to R207, R230, R231, R253 to R263) with the registers it needs. -/
inductive PhaseStep (s : State) : State → Prop
  | fault (c : FaultClass) : PhaseStep s (raiseFault c s)
  | dummyByte (phase : s.phase = .powerOnClock) (step : s.step < 100) :
      PhaseStep s (transmit idleTx { s with step := s.step + 1 })
  | cmd0 (phase : s.phase = .powerOnClock) : PhaseStep s (issueCmd0 (select s))
  | cmd8 (phase : s.phase = .awaitReset) : PhaseStep s (issueCmd8 s)
  | echoByte (phase : s.phase = .awaitInterfaceCheck) (step : s.step < 4) :
      PhaseStep s (transmit idleTx { s with step := s.step + 1 })
  | cmd1 (phase : s.phase = .awaitInterfaceCheck ∨ s.phase = .awaitReady) :
      PhaseStep s (issueCmd1 s)
  | cmd16 (phase : s.phase = .awaitReady) : PhaseStep s (issueCmd16 s)
  | cmd17 (phase : s.phase = .awaitBlockLenAck) : PhaseStep s (issueCmd17 s)
  | readAck (phase : s.phase = .awaitReadAck) :
      PhaseStep s (transmit idleTx { s with phase := .awaitDataToken, waitCount := 0 })
  | token (phase : s.phase = .awaitDataToken) :
      PhaseStep s (transmit idleTx { s with phase := .readMetadataBlock, step := 0 })
  | tokenWait (phase : s.phase = .awaitDataToken) (wait : s.waitCount + 1 ≤ 250) :
      PhaseStep s (transmit idleTx { s with waitCount := s.waitCount + 1 })
  | metadataByte (rx : Byte) (phase : s.phase = .readMetadataBlock) (step : s.step + 1 ≠ 130) :
      PhaseStep s (transmit idleTx { captureByte rx s with step := s.step + 1 })
  | recovered (rx : Byte) (phase : s.phase = .readMetadataBlock) :
      PhaseStep s (recoverAndEnterReady (captureByte rx s))
  | writeAck (phase : s.phase = .writing) (step : s.step = 0) : PhaseStep s (sendDataToken s)
  | metadataPayload (phase : s.phase = .writing) (variant : s.variant = .super) (first : s.step ≠ 0)
      (last : s.step ≤ 128) :
      PhaseStep s (sendPayloadByte (superByte (s.step.toNat - 1) s.cursor) s)
  | dataPayload (phase : s.phase = .writing) (variant : s.variant = .data) (first : s.step ≠ 0)
      (last : s.step ≤ 128) :
      PhaseStep s (sendPayloadByte (dataByte (nextAnswer s)) (takeAnswer s))
  | filler (phase : s.phase = .writing) (first : 128 < s.step) (last : s.step ≤ 130) :
      PhaseStep s (transmit Config.fillerByte { s with step := s.step + 1 })
  | packetEnd (phase : s.phase = .writing) (step : 130 < s.step) :
      PhaseStep s (transmit idleTx { s with phase := .awaitWriteBusy, step := 0 })
  | accepted (phase : s.phase = .awaitWriteBusy) (step : s.step = 0) :
      PhaseStep s (transmit idleTx { s with step := 1 })
  | busy (phase : s.phase = .awaitWriteBusy) (step : s.step ≠ 0) : PhaseStep s (transmit idleTx s)
  | stored (phase : s.phase = .awaitWriteBusy) (step : s.step ≠ 0) :
      PhaseStep s (issueCmd13 (commitWrite s))
  | firstStatus (phase : s.phase = .awaitStatus) (step : s.step = 0) :
      PhaseStep s (transmit idleTx { s with step := 1 })
  | metadataDone (phase : s.phase = .awaitStatus) (variant : s.variant = .super)
      (step : s.step ≠ 0) :
      PhaseStep s (writeDecision { s with superDone := true, pending := none })
  | dataDone (phase : s.phase = .awaitStatus) (variant : s.variant = .data) (step : s.step ≠ 0) :
      PhaseStep s (deselectIdle { s with pending := none })

theorem handlePowerOnClock_phaseStep {s : State} (hp : s.phase = .powerOnClock) :
    PhaseStep s (handlePowerOnClock s) := by
  unfold handlePowerOnClock
  split
  · exact .dummyByte hp ‹_›
  · exact .cmd0 hp

theorem handleAwaitReset_phaseStep {s : State} (rx : Byte) (hp : s.phase = .awaitReset) :
    PhaseStep s (handleAwaitReset rx s) := by
  unfold handleAwaitReset
  split
  · exact .cmd8 hp
  · exact .fault _

theorem handleAwaitInterfaceCheck_phaseStep {rx : Byte} {s t : State}
    (hp : s.phase = .awaitInterfaceCheck) (h : handleAwaitInterfaceCheck rx s = .next t) :
    PhaseStep s t := by
  unfold handleAwaitInterfaceCheck at h
  split at h
  · cases h
  next e he =>
    have below : s.step.toNat < 5 := (List.getElem?_eq_some_iff.mp he).1
    split at h
    · cases h; exact .fault _
    split at h
    · cases h; exact .cmd1 (.inl hp)
    · cases h; exact .echoByte hp (by bv_omega)

theorem handleAwaitReady_phaseStep {s : State} (rx : Byte) (hp : s.phase = .awaitReady) :
    PhaseStep s (handleAwaitReady rx s) := by
  unfold handleAwaitReady
  split
  · exact .cmd1 (.inr hp)
  split
  · exact .cmd16 hp
  · exact .fault _

theorem handleAwaitBlockLenAck_phaseStep {s : State} (rx : Byte)
    (hp : s.phase = .awaitBlockLenAck) : PhaseStep s (handleAwaitBlockLenAck rx s) := by
  unfold handleAwaitBlockLenAck
  split
  · exact .cmd17 hp
  · exact .fault _

theorem handleAwaitReadAck_phaseStep {s : State} (rx : Byte) (hp : s.phase = .awaitReadAck) :
    PhaseStep s (handleAwaitReadAck rx s) := by
  unfold handleAwaitReadAck
  split
  · exact .readAck hp
  · exact .fault _

/-- The wait that times out counts before it faults, which clears the count again (R207, R300). -/
theorem handleAwaitDataToken_phaseStep {s : State} (rx : Byte) (hp : s.phase = .awaitDataToken) :
    PhaseStep s (handleAwaitDataToken rx s) := by
  unfold handleAwaitDataToken
  split
  · exact .token hp
  split
  · have cleared : raiseFault .busTimeout { s with waitCount := s.waitCount + 1 } =
        raiseFault .busTimeout s := raiseFault_congr _ rfl rfl rfl rfl rfl rfl rfl rfl
    split
    · rw [cleared]; exact .fault _
    next hw => exact .tokenWait hp (BitVec.not_lt.mp hw)
  · exact .fault _

theorem captureByte_eq (rx : Byte) (s : State) :
    ∃ c a m, captureByte rx s = { s with cursor := c, cursorAlt := a, metaC := m } := by
  unfold captureByte
  split
  · exact ⟨_, _, _, rfl⟩
  split
  · exact ⟨_, _, _, rfl⟩
  split
  · exact ⟨_, _, _, rfl⟩
  · exact ⟨_, _, _, rfl⟩

theorem handleReadMetadataBlock_phaseStep {s : State} (rx : Byte)
    (hp : s.phase = .readMetadataBlock) : PhaseStep s (handleReadMetadataBlock rx s) := by
  have hstep : (captureByte rx s).step = s.step := by
    obtain ⟨c, a, m, e⟩ := captureByte_eq rx s
    rw [e]
  unfold handleReadMetadataBlock countPacketByte
  rw [hstep]
  split
  · exact .recovered rx hp
  · exact .metadataByte rx hp ‹_›

theorem handleWriting_phaseStep {s : State} (rx : Byte) (hp : s.phase = .writing) :
    PhaseStep s (handleWriting rx s) := by
  unfold handleWriting handleWritingPacket
  split
  · split
    · exact .fault _
    · exact .writeAck hp ‹_›
  split
  · split
    · exact .metadataPayload hp ‹_› ‹_› ‹_›
    · exact .dataPayload hp ‹_› ‹_› ‹_›
  next above =>
    split
    · exact .filler hp (BitVec.not_le.mp above) ‹_›
    next above => exact .packetEnd hp (BitVec.not_le.mp above)

theorem handleAwaitWriteBusy_phaseStep {s : State} (rx : Byte) (hp : s.phase = .awaitWriteBusy) :
    PhaseStep s (handleAwaitWriteBusy rx s) := by
  unfold handleAwaitWriteBusy handleBusyPoll
  split
  · split
    · exact .accepted hp ‹_›
    · exact .fault _
  split
  · exact .busy hp ‹_›
  · exact .stored hp ‹_›

theorem handleAwaitStatus_phaseStep {s : State} (rx : Byte) (hp : s.phase = .awaitStatus) :
    PhaseStep s (handleAwaitStatus rx s) := by
  unfold handleAwaitStatus awaitStatusDone
  split
  · exact .fault _
  split
  · exact .firstStatus hp ‹_›
  split
  · exact .metadataDone hp ‹_› ‹_›
  · exact .dataDone hp ‹_› ‹_›

/-- Every handler answers one of the outcomes of `PhaseStep`. -/
theorem phaseDispatch_phaseStep {rx : Byte} {s t : State} (h : phaseDispatch rx s = .next t) :
    PhaseStep s t := by
  rcases phaseDispatch_cases h with ⟨hp, rfl⟩ | ⟨hp, rfl⟩ | ⟨hp, h⟩ | ⟨hp, rfl⟩ | ⟨hp, rfl⟩ |
    ⟨hp, rfl⟩ | ⟨hp, rfl⟩ | ⟨hp, rfl⟩ | ⟨hp, rfl⟩ | ⟨hp, rfl⟩ | ⟨hp, rfl⟩
  · exact handlePowerOnClock_phaseStep hp
  · exact handleAwaitReset_phaseStep rx hp
  · exact handleAwaitInterfaceCheck_phaseStep hp h
  · exact handleAwaitReady_phaseStep rx hp
  · exact handleAwaitBlockLenAck_phaseStep rx hp
  · exact handleAwaitReadAck_phaseStep rx hp
  · exact handleAwaitDataToken_phaseStep rx hp
  · exact handleReadMetadataBlock_phaseStep rx hp
  · exact handleWriting_phaseStep rx hp
  · exact handleAwaitWriteBusy_phaseStep rx hp
  · exact handleAwaitStatus_phaseStep rx hp

/-- What an event can do: send the frame on, skip `0xFF` in the wait for a response, or a phase's step. -/
theorem byteEvent_outcome {rx : Byte} {s t : State} (h : byteEvent rx s = .next t) :
    s.mode = .sendingCommand ∧ t = frameStep { s with inFlight := false } ∨
    s.mode = .awaitingResponse ∧ t = transmit idleTx { s with inFlight := false } ∨
    s.mode ≠ .sendingCommand ∧ PhaseStep (examining s) t := by
  obtain ⟨-, -, ⟨hm, ht⟩ | ⟨hm, -, ht⟩ | ⟨hm, h⟩⟩ := byteEvent_cases h
  · exact .inl ⟨hm, ht⟩
  · exact .inr (.inl ⟨hm, ht⟩)
  · have quiet : s.mode ≠ .sendingCommand := by rcases hm with e | ⟨e, -⟩ <;> rw [e] <;> decide
    exact .inr (.inr ⟨quiet, phaseDispatch_phaseStep h⟩)

/-! ### The invariant of the registers, where each kind of outcome keeps it -/

/-- The part of `RegistersOk` that a transfer under way does not touch: it reads neither the mode, the
step counter, the frame nor the in-flight flag. -/
structure Steady (s : State) : Prop where
  started : s.started = true
  variant : s.phase.isWrite = false → s.variant = .data
  deselected : s.phase = .powerOnClock → s.selected = false
  selected : s.phase ≠ .powerOnClock → s.phase ≠ .ready → s.selected = true
  waits : s.waitCount ≤ 250
  aligned : (s.phase = .ready ∨ s.phase.isWrite = true) → s.cursor &&& 0x7F = 0
  regionStart : s.variant = .super → s.cursor &&& 0x3FFFF = 0
  superDone : s.superDone = false

theorem RegistersOk.steady {s : State} (h : RegistersOk s) : Steady s := { h with }

/-- Another phase on the same side of Ready keeps the steady registers. -/
theorem Steady.withPhase {s : State} {p : Phase} (h : Steady s) (hw : p.isWrite = s.phase.isWrite)
    (hr : p ≠ .ready) (hc : p ≠ .powerOnClock) (hs : s.selected = true) :
    Steady { s with phase := p } :=
  { h with
    variant := fun e => h.variant (hw ▸ e)
    deselected := fun e => absurd e hc
    selected := fun _ _ => hs
    aligned := fun e => h.aligned (.inr (hw ▸ e.resolve_left hr)) }

theorem held_of_idleStepRange {p : Phase} {k : Byte} (h : idleStepRange p k) : p.held = true := by
  cases p <;> simp_all [idleStepRange, Phase.held]

theorem held_of_awaitsCommand {p : Phase} (h : p.awaitsCommand = true) :
    p.held = true ∧ p ≠ .ready := by
  cases p <;> simp_all [Phase.awaitsCommand, Phase.held]

/-- The registers of R50 meet the invariant. -/
theorem ResetRegisters.registersOk {t : State} (h : ResetRegisters t) (hs : t.started = true) :
    RegistersOk t := by
  obtain ⟨hp, hv, hm, hk, hw, hf, -, -, -, hd, hsel, hfl⟩ := h
  constructor <;>
    simp [hp, hv, hm, hk, hw, hf, hd, hsel, hfl, hs, Phase.held, Phase.isWrite, idleStepRange,
      Frame.zero]

theorem raiseFault_registersOk {s : State} (c : FaultClass) (hs : s.started = true) :
    RegistersOk (raiseFault c s) :=
  have taken := raiseFault_taken c s
  taken.registers.registersOk (taken.started.trans hs)

theorem resetBlock_registersOk (s : State) : RegistersOk (resetBlock s) := by
  have cleared : ResetRegisters (resetBlock s) := by
    rw [resetBlock_eq]
    exact ⟨rfl, rfl, rfl, rfl, rfl, rfl, rfl, rfl, rfl, rfl, rfl, rfl⟩
  exact cleared.registersOk (by rw [resetBlock_eq])

/-- A byte handed over in mode Idle, the step counter in the range of its phase. -/
theorem transmit_registersOk {s : State} (b : Byte) (h : Steady s) (hm : s.mode = .idle)
    (hf : s.frame = Frame.zero) (hr : s.phase ≠ .ready) (hk : idleStepRange s.phase s.step) :
    RegistersOk (transmit b s) :=
  { h with
    held := held_of_idleStepRange hk
    sending := by simp [hm]
    sent := by simp [hm]
    quiet := fun _ => hf
    awaiting := by simp [hm]
    idle := fun _ => hk
    paused := by simp [hr] }

/-- A command's frame issued, byte 0 handed over and clear. -/
theorem issue_registersOk {s : State} {p : Phase} (op : BitVec 6) (arg : Word)
    (h : Steady { s with phase := p }) (hp : p.awaitsCommand = true) :
    RegistersOk (issue op arg p s) :=
  { h with
    held := (held_of_awaitsCommand hp).1
    sending := fun _ => ⟨by simp, by simp, hp⟩
    sent := fun _ k hk => by
      obtain rfl : k = 0 := by simpa using hk
      rfl
    quiet := by simp
    awaiting := by simp
    idle := by simp
    paused := by simp [(held_of_awaitsCommand hp).2] }

/-- The pause, in Ready. -/
theorem pause_registersOk {s : State} (h : Steady s) (hp : s.phase = .ready) (hm : s.mode = .idle)
    (hf : s.frame = Frame.zero) (hk : s.step = 0) : RegistersOk (pause s) :=
  { h with
    held := by simp [hp, Phase.held]
    sending := by simp [hm]
    sent := by simp [hm]
    quiet := fun _ => hf
    awaiting := by simp [hm]
    idle := fun _ => by simp [hp, hk, idleStepRange]
    paused := by simp [hp] }

/-! ### The frame under way -/

theorem Frame.get_clear_same (f : Frame) : ∀ k, (f.clear k).get k = 0
  | 0 | 1 | 2 | 3 | 4 | _ + 5 => rfl

/-- Clearing one byte sets no other. -/
theorem Frame.get_clear_of_get {f : Frame} {j k : Nat} (h : f.get k = 0) :
    (f.clear j).get k = 0 := by
  unfold Frame.get Frame.clear at *
  split <;> split <;> simp_all

theorem Frame.eq_zero_of_get {f : Frame} (h : ∀ k, k < 6 → f.get k = 0) : f = Frame.zero := by
  cases f
  simp only [Frame.zero, Frame.mk.injEq]
  exact ⟨h 0 (by decide), h 1 (by decide), h 2 (by decide), h 3 (by decide), h 4 (by decide),
    h 5 (by decide)⟩

theorem frameStep_registersOk {s : State} (h : RegistersOk s) (hm : s.mode = .sendingCommand) :
    RegistersOk (frameStep { s with inFlight := false }) := by
  obtain ⟨first, last, hp⟩ := h.sending hm
  have notReady := (held_of_awaitsCommand hp).2
  unfold frameStep
  split
  next below =>
    have below : s.step < 6 := below
    exact
      { h with
        sending := fun _ =>
          ⟨by simp [sendFrameByte]; bv_omega, by simp [sendFrameByte]; bv_omega, hp⟩
        sent := fun _ k hk => by
          have hk : k < s.step.toNat + 1 := by simp [sendFrameByte] at hk; bv_omega
          rcases Nat.lt_succ_iff_lt_or_eq.mp hk with lt | rfl
          · exact Frame.get_clear_of_get (h.sent hm k lt)
          · exact Frame.get_clear_same _ _
        quiet := fun e => absurd hm e
        awaiting := fun e => by cases hm.symm.trans e
        idle := fun e => by cases hm.symm.trans e
        paused := by simp [sendFrameByte, notReady] }
  next above =>
    have six : s.step.toNat = 6 := by
      have above : ¬ s.step < 6 := above
      bv_omega
    exact
      { h with
        sending := by simp
        sent := by simp
        quiet := fun _ => Frame.eq_zero_of_get fun k hk => h.sent hm k (six ▸ hk)
        awaiting := fun _ => ⟨rfl, hp⟩
        idle := by simp
        paused := by simp [notReady] }

/-- `0xFF` skipped in the wait for a response. -/
theorem skip_registersOk {s : State} (h : RegistersOk s) (hm : s.mode = .awaitingResponse) :
    RegistersOk (transmit idleTx { s with inFlight := false }) :=
  { h with paused := by simp [(held_of_awaitsCommand (h.awaiting hm).2).2] }

/-! ### The events of the phases -/

/-- The registers where a phase's handler examines a byte: the range of R35, or 0 for the first byte of
a response. -/
structure Examined (s : State) : Prop extends Steady s where
  mode : s.mode = .idle
  frame : s.frame = Frame.zero
  notReady : s.phase ≠ .ready
  step : s.phase.awaitsCommand = true ∧ s.step = 0 ∨ idleStepRange s.phase s.step

theorem RegistersOk.examined {s : State} (h : RegistersOk s) (hf : s.inFlight = true)
    (hm : s.mode ≠ .sendingCommand) : Examined (examining s) := by
  have notReady : s.phase ≠ .ready := fun e => by cases hf.symm.trans (h.paused.mpr e)
  cases e : s.mode with
  | sendingCommand => exact absurd e hm
  | idle =>
    simp only [examining, e]
    exact { h.steady with
      mode := rfl, frame := h.quiet hm, notReady := notReady, step := .inr (h.idle e) }
  | awaitingResponse =>
    simp only [examining, e]
    exact { h.steady with
      mode := rfl, frame := h.quiet hm, notReady := notReady
      step := .inl ⟨(h.awaiting e).2, rfl⟩ }

theorem Examined.selectedIn {s : State} {p : Phase} (h : Examined s) (hp : s.phase = p)
    (hc : p ≠ .powerOnClock) : s.selected = true :=
  h.selected (hp ▸ hc) h.notReady

/-- A command that the next phase awaits, issued on the same side of Ready. -/
theorem Examined.issue_registersOk {s : State} {p q : Phase} (op : BitVec 6) (arg : Word)
    (h : Examined s) (hp : s.phase = p) (hc : p ≠ .powerOnClock) (hw : q.isWrite = p.isWrite)
    (hq : q.awaitsCommand = true) (hq' : q ≠ .powerOnClock) : RegistersOk (issue op arg q s) :=
  Machine.issue_registersOk op arg
    (h.toSteady.withPhase (hw.trans (by rw [hp])) (held_of_awaitsCommand hq).2 hq'
      (h.selectedIn hp hc)) hq

/-- A byte handed over with another value of the step counter, within the range of the phase. -/
theorem Examined.transmit_registersOk {s : State} (b k : Byte) (h : Examined s)
    (hk : idleStepRange s.phase k) : RegistersOk (transmit b { s with step := k }) :=
  Machine.transmit_registersOk b { h.toSteady with } h.mode h.frame h.notReady hk

theorem block_mask_add (v : Word) (h : v &&& 0x7F = 0) : (v + 128) &&& 0x7F = 0 := by
  rw [block_mask_eq_zero_iff] at *
  bv_omega

theorem block_mask_of_region_mask (v : Word) (h : v &&& 0x3FFFF = 0) : v &&& 0x7F = 0 := by
  rw [mask_eq_zero_iff] at h
  rw [block_mask_eq_zero_iff]
  omega

theorem validate_region_mask (v : Word) : validate v &&& 0x3FFFF = 0 := by
  unfold validate
  split
  · rfl
  next h =>
    have hv : v &&& 0x3FFFF = 0 := by simpa [qMask] using (not_or.mp h).2
    rw [mask_eq_zero_iff] at *
    simp only [quarterRegion]
    bv_omega

/-- The WriteDecision, from Ready or after the metadata block (R252, R261): `super_done` may be set. -/
theorem writeDecision_registersOk {s : State} (hs : s.started = true) (hw : s.waitCount ≤ 250)
    (ha : s.cursor &&& 0x7F = 0) : RegistersOk (writeDecision s) := by
  unfold writeDecision
  split
  · refine issue_registersOk 24 _ ?_ rfl
    exact
      { started := hs, variant := fun _ => rfl, deselected := nofun, selected := fun _ _ => rfl
        waits := hw, aligned := fun _ => block_mask_add _ ha, regionStart := nofun
        superDone := rfl }
  next h =>
    obtain ⟨start, notDone⟩ := not_or.mp h
    refine issue_registersOk 24 _ ?_ rfl
    exact
      { started := hs, variant := nofun, deselected := nofun, selected := fun _ _ => rfl
        waits := hw, aligned := fun _ => ha, regionStart := fun _ => not_not.mp start
        superDone := Bool.eq_false_iff.mpr notDone }

theorem takeAnswer_eq (s : State) :
    ∃ p n, takeAnswer s = { s with payload := p, payloadCount := n } := by
  unfold takeAnswer
  split
  · exact ⟨_, _, rfl⟩
  · exact ⟨_, _, rfl⟩

theorem commitWrite_eq (s : State) : commitWrite s = { s with mem := (commitWrite s).mem } := by
  unfold commitWrite
  split <;> rfl

/-- Every outcome of a handler meets the invariant of the registers again. -/
theorem PhaseStep.registersOk {s t : State} (h : PhaseStep s t) (he : Examined s) :
    RegistersOk t := by
  have range := he.step
  cases h with
  | fault c => exact raiseFault_registersOk c he.started
  | dummyByte phase step =>
    rw [phase] at range
    refine he.transmit_registersOk _ _ ?_
    rw [phase]
    simp only [Phase.awaitsCommand, idleStepRange] at range ⊢
    bv_omega
  | cmd0 phase =>
    refine issue_registersOk 0 _ ?_ rfl
    exact { he.toSteady with
      variant := fun _ => he.variant (by rw [phase]; rfl)
      deselected := nofun, selected := fun _ _ => rfl, aligned := nofun }
  | cmd8 phase => exact he.issue_registersOk 8 _ phase nofun rfl rfl nofun
  | echoByte phase step =>
    refine he.transmit_registersOk _ _ ?_
    rw [phase]
    simp only [idleStepRange]
    bv_omega
  | cmd1 phase =>
    rcases phase with phase | phase
    · exact he.issue_registersOk 1 _ phase nofun rfl rfl nofun
    · exact he.issue_registersOk 1 _ phase nofun rfl rfl nofun
  | cmd16 phase => exact he.issue_registersOk 16 _ phase nofun rfl rfl nofun
  | cmd17 phase => exact he.issue_registersOk 17 _ phase nofun rfl rfl nofun
  | readAck phase =>
    have zero : s.step = 0 := by simpa [phase, idleStepRange, Phase.awaitsCommand] using range
    have moved : Steady { s with phase := .awaitDataToken } :=
      he.toSteady.withPhase (by rw [phase]; rfl) nofun nofun (he.selectedIn phase nofun)
    exact transmit_registersOk _ { moved with waits := show (0 : Byte) ≤ 250 by decide } he.mode
      he.frame nofun zero
  | token phase =>
    have moved : Steady { s with phase := .readMetadataBlock } :=
      he.toSteady.withPhase (by rw [phase]; rfl) nofun nofun (he.selectedIn phase nofun)
    exact transmit_registersOk _ { moved with } he.mode he.frame nofun
      (by simp [idleStepRange])
  | tokenWait phase wait =>
    have zero : s.step = 0 := by simpa [phase, idleStepRange, Phase.awaitsCommand] using range
    exact transmit_registersOk _ { he.toSteady with waits := wait } he.mode he.frame he.notReady
      (by simpa [phase, idleStepRange] using zero)
  | metadataByte rx phase step =>
    have last : s.step ≤ 129 := by simpa [phase, idleStepRange, Phase.awaitsCommand] using range
    obtain ⟨c, a, m, e⟩ := captureByte_eq rx s
    have variant : s.variant = .data := he.variant (by rw [phase]; rfl)
    rw [e]
    refine transmit_registersOk _ { he.toSteady with aligned := ?_, regionStart := ?_ } he.mode
      he.frame he.notReady ?_
    · simp [phase, Phase.isWrite]
    · simp [variant]
    · simp only [phase, idleStepRange]
      bv_omega
  | recovered rx phase =>
    obtain ⟨c, a, m, e⟩ := captureByte_eq rx s
    have variant : s.variant = .data := he.variant (by rw [phase]; rfl)
    rw [e]
    refine pause_registersOk ?_ rfl he.mode he.frame rfl
    exact { he.toSteady with
      variant := fun _ => variant, deselected := nofun, selected := fun _ r => absurd rfl r
      aligned := fun _ => block_mask_of_region_mask _ (validate_region_mask _)
      regionStart := fun _ => validate_region_mask _ }
  | writeAck phase step =>
    exact he.transmit_registersOk _ _ (by simp [phase, idleStepRange])
  | metadataPayload phase variant first last =>
    refine transmit_registersOk _ { he.toSteady with } he.mode he.frame he.notReady ?_
    simp only [phase, idleStepRange]
    bv_omega
  | dataPayload phase variant first last =>
    obtain ⟨p, n, e⟩ := takeAnswer_eq s
    rw [e]
    refine transmit_registersOk _ { he.toSteady with } he.mode he.frame he.notReady ?_
    simp only [phase, idleStepRange]
    bv_omega
  | filler phase first last =>
    refine he.transmit_registersOk _ _ ?_
    simp only [phase, idleStepRange]
    bv_omega
  | packetEnd phase step =>
    have moved : Steady { s with phase := .awaitWriteBusy } :=
      he.toSteady.withPhase (by rw [phase]; rfl) nofun nofun (he.selectedIn phase nofun)
    exact transmit_registersOk _ { moved with } he.mode he.frame nofun (by simp [idleStepRange])
  | accepted phase step =>
    exact he.transmit_registersOk _ _ (by simp [phase, idleStepRange])
  | busy phase step =>
    have inRange : idleStepRange s.phase s.step :=
      range.resolve_left fun r => by simp [phase, Phase.awaitsCommand] at r
    exact transmit_registersOk _ he.toSteady he.mode he.frame he.notReady inRange
  | stored phase step =>
    rw [commitWrite_eq]
    exact Examined.issue_registersOk 13 _ { he with } phase nofun rfl rfl nofun
  | firstStatus phase step =>
    exact he.transmit_registersOk _ _ (by simp [phase, idleStepRange])
  | metadataDone phase variant step =>
    exact writeDecision_registersOk he.started he.waits (he.aligned (.inr (by rw [phase]; rfl)))
  | dataDone phase variant step =>
    refine pause_registersOk ?_ rfl he.mode he.frame rfl
    exact { he.toSteady with
      variant := fun _ => rfl, deselected := nofun, selected := fun _ r => absurd rfl r
      aligned := fun _ => he.aligned (.inr (by rw [phase]; rfl)), regionStart := nofun }

theorem byteEvent_registersOk {rx : Byte} {s t : State} (hs : RegistersOk s)
    (h : byteEvent rx s = .next t) : RegistersOk t := by
  obtain ⟨-, hf, -⟩ := byteEvent_next h
  rcases byteEvent_outcome h with ⟨hm, rfl⟩ | ⟨hm, rfl⟩ | ⟨hm, hstep⟩
  · exact frameStep_registersOk hs hm
  · exact skip_registersOk hs hm
  · exact hstep.registersOk (hs.examined hf hm)

theorem writeDecision_ready_registersOk {s : State} (hs : RegistersOk s) (hp : s.phase = .ready) :
    RegistersOk (writeDecision s) :=
  writeDecision_registersOk hs.started hs.waits (hs.aligned (.inl hp))

/-- The pause that `request_write` without payload leaves in place (R149, R151). -/
theorem pause_kept_registersOk {s : State} (hs : RegistersOk s) (hp : s.phase = .ready) :
    RegistersOk (pause s) :=
  { hs with paused := by simp [hp] }

/-- Every row is one of the operations of `exec_keeps`, and each of them keeps the registers. -/
theorem exec_registersOk {i : Instr} {s t : State} (hs : RegistersOk s) (h : exec i s = .next t) :
    RegistersOk t := by
  refine exec_keeps ?event ?reset ?rejected ?paused ?decision ?answers hs h
  case event => exact fun _ _ _ => byteEvent_registersOk
  case reset => exact fun s _ => resetBlock_registersOk s
  case rejected => exact fun _ hs => { hs with }
  case paused => exact fun _ hs hp _ => pause_kept_registersOk hs hp
  case decision => exact fun _ hs hp _ => writeDecision_ready_registersOk hs hp
  case answers => exact fun _ _ hs => { hs with }

/-- Settles O49. -/
theorem environmentRowsKeepTheRegisters : Obligations.EnvironmentRowsKeepTheRegisters :=
  fun _ _ _ => exec_registersOk

/-! ### The invariant of the device's side, where each kind of outcome keeps it -/

/-- No write is under way, outside the phases of one. -/
theorem deviceOk_of_noWrite {t : State} (hw : t.phase.isWrite = false) (hp : t.pending = none) :
    DeviceOk t := by
  constructor <;> simp [hw, hp]

/-- The write a CMD24 opens holds nothing yet. -/
theorem deviceOk_of_opened {t : State} {a : Word} (hw : t.phase = .writing)
    (hm : t.mode = .sendingCommand) (hp : t.pending = some ⟨a, []⟩)
    (hsuper : t.variant = .super → a = 0) (hdata : t.variant = .data → a + 128 = t.cursor) :
    DeviceOk t where
  none e := by rw [hw] at e; cases e
  some _ := ⟨_, hp, by simp [payloadSent, hw, hm]⟩
  superAddr w e := by obtain rfl := Option.some.inj (hp.symm.trans e); exact hsuper
  dataAddr w e := by obtain rfl := Option.some.inj (hp.symm.trans e); exact hdata
  superData w e _ := by obtain rfl := Option.some.inj (hp.symm.trans e); simp
  written w _ e := by rw [hw] at e; cases e

theorem raiseFault_deviceOk (c : FaultClass) (s : State) : DeviceOk (raiseFault c s) := by
  rw [raiseFault_eq]; exact deviceOk_of_noWrite rfl rfl

theorem resetBlock_deviceOk (s : State) : DeviceOk (resetBlock s) := by
  rw [resetBlock_eq]; exact deviceOk_of_noWrite rfl rfl

theorem writeDecision_deviceOk (s : State) : DeviceOk (writeDecision s) := by
  unfold writeDecision
  split
  · exact deviceOk_of_opened rfl rfl rfl nofun fun _ => rfl
  · exact deviceOk_of_opened rfl rfl rfl (fun _ => rfl) nofun

/-- What leaves the write under way, its variant, its cursor and the device alone keeps the invariant. -/
theorem DeviceOk.congr {s t : State} (h : DeviceOk s) (hw : t.phase.isWrite = s.phase.isWrite)
    (hs : t.phase = .awaitStatus → s.phase = .awaitStatus) (hv : t.variant = s.variant)
    (hc : t.cursor = s.cursor) (hm : t.mem = s.mem) (hp : t.pending = s.pending)
    (hn : payloadSent t = payloadSent s) : DeviceOk t where
  none := by rw [hw, hp]; exact h.none
  some := by rw [hw, hp, hn]; exact h.some
  superAddr := by rw [hp, hv]; exact h.superAddr
  dataAddr := by rw [hp, hv, hc]; exact h.dataAddr
  superData := by rw [hp, hv, hc]; exact h.superData
  written w e ht := by rw [hm]; exact h.written w (hp ▸ e) (hs ht)

theorem payloadSent_packet {s : State} (hp : s.phase = .writing) (hm : s.mode = .idle) :
    payloadSent s = min (s.step.toNat - 1) 128 := by
  simp only [payloadSent, hp, hm]

theorem payloadSent_beforePacket {s : State} (hp : s.phase = .writing) (hm : s.mode ≠ .idle) :
    payloadSent s = 0 := by
  unfold payloadSent
  split <;> simp_all

theorem payloadSent_afterPacket {s : State} (hp : s.phase ≠ .writing) : payloadSent s = 128 := by
  unfold payloadSent
  split <;> simp_all

/-- Outside mode Idle the payload handed over is the phase's alone. -/
theorem payloadSent_eq_of_phase {s t : State} (hp : t.phase = s.phase) (hs : s.mode ≠ .idle)
    (ht : t.mode ≠ .idle) : payloadSent t = payloadSent s := by
  by_cases writing : s.phase = .writing
  · rw [payloadSent_beforePacket writing hs, payloadSent_beforePacket (hp.trans writing) ht]
  · rw [payloadSent_afterPacket writing, payloadSent_afterPacket (hp ▸ writing)]

/-- Where a byte is examined nothing but the mode, the step counter and the in-flight flag differs. -/
theorem examining_eq (s : State) :
    ∃ m k, examining s = { s with inFlight := false, mode := m, step := k } := by
  unfold examining
  split
  · exact ⟨_, _, rfl⟩
  · exact ⟨_, _, rfl⟩
  · exact ⟨_, _, rfl⟩

/-- The packet starts with the first byte of the response: until then nothing of it is sent. -/
theorem payloadSent_examining (s : State) : payloadSent (examining s) = payloadSent s := by
  by_cases hp : s.phase = .writing
  · cases hm : s.mode with
    | idle =>
      rw [payloadSent_packet hp hm, payloadSent_packet (by simpa using hp)]
      · simp only [examining, hm]
      · simp only [examining, hm]
    | awaitingResponse =>
      rw [payloadSent_beforePacket hp (by rw [hm]; decide), payloadSent_packet (by simpa using hp)]
      · simp [examining, hm]
      · simp only [examining, hm]
    | sendingCommand => simp only [examining, payloadSent, hm]
  · rw [payloadSent_afterPacket hp, payloadSent_afterPacket (by simpa using hp)]

theorem DeviceOk.examining {s : State} (h : DeviceOk s) : DeviceOk (examining s) := by
  obtain ⟨m, k, e⟩ := examining_eq s
  refine h.congr ?_ ?_ ?_ ?_ ?_ ?_ (payloadSent_examining s) <;> rw [e]
  exact id

/-- A byte of a frame, or its completion: the response is still to come. -/
theorem frameStep_deviceOk {s : State} (h : DeviceOk s) (hm : s.mode = .sendingCommand) :
    DeviceOk (frameStep { s with inFlight := false }) := by
  have sending : s.mode ≠ .idle := by rw [hm]; decide
  unfold frameStep
  split
  · exact h.congr rfl id rfl rfl rfl rfl (payloadSent_eq_of_phase rfl sending sending)
  · exact h.congr rfl id rfl rfl rfl rfl (payloadSent_eq_of_phase rfl sending nofun)

/-- After the packet the step counter says nothing about the payload. -/
theorem DeviceOk.transmit_afterPacket {s : State} (b k : Byte) (h : DeviceOk s)
    (hp : s.phase ≠ .writing) : DeviceOk (transmit b { s with step := k }) :=
  h.congr rfl id rfl rfl rfl rfl <| by
    rw [payloadSent_afterPacket hp]
    exact payloadSent_afterPacket hp

theorem superPayload_getElem? {k : Nat} (c : Word) (hk : k < 128) :
    (superPayload c)[k]? = some (superByte k c) := by
  simp [superPayload, hk]

/-- One payload byte of the packet handed over: the device has taken in one more (R254, R76). -/
theorem sendPayloadByte_deviceOk {s : State} {b : Byte} (h : DeviceOk s)
    (hp : s.phase = .writing) (hm : s.mode = .idle) (first : s.step ≠ 0) (last : s.step ≤ 128)
    (hb : s.variant = .super → b = superByte (s.step.toNat - 1) s.cursor) :
    DeviceOk (sendPayloadByte b s) := by
  obtain ⟨w, hw, hlen⟩ := h.some (by rw [hp]; rfl)
  have index : w.data.length = s.step.toNat - 1 := by
    rw [hlen, payloadSent_packet hp hm]
    bv_omega
  have grown : (sendPayloadByte b s).pending = some { w with data := w.data ++ [b] } := by
    simp only [sendPayloadByte, transmit_pending, hw, Option.map_some]
  constructor
  case none => intro e; simp [sendPayloadByte, hp, Phase.isWrite] at e
  case some =>
    intro _
    refine ⟨_, grown, ?_⟩
    rw [payloadSent_packet (by exact hp) (by exact hm), List.length_append, index]
    simp only [sendPayloadByte, transmit_step, List.length_singleton]
    bv_omega
  case superAddr =>
    rw [grown]
    rintro _ ⟨rfl⟩
    exact h.superAddr w hw
  case dataAddr =>
    rw [grown]
    rintro _ ⟨rfl⟩
    exact h.dataAddr w hw
  case superData =>
    rw [grown]
    rintro _ ⟨rfl⟩ hv
    have below : w.data.length < 128 := by bv_omega
    change w.data ++ [b] = (superPayload s.cursor).take (w.data ++ [b]).length
    rw [List.length_append, List.length_singleton, List.take_add_one, ← h.superData w hw hv,
      superPayload_getElem? _ below, hb hv, index]
    rfl
  case written => intro _ _ e; simp [sendPayloadByte, hp] at e

/-- The end of the busy poll stores the whole payload (R259, R76). -/
theorem issueCmd13_commitWrite_deviceOk {s : State} (h : DeviceOk s)
    (hp : s.phase = .awaitWriteBusy) : DeviceOk (issueCmd13 (commitWrite s)) := by
  obtain ⟨w, hw, hlen⟩ := h.some (by rw [hp]; rfl)
  have whole : w.data.length = 128 := by rw [hlen, payloadSent_afterPacket (by rw [hp]; decide)]
  have stored : (commitWrite s).mem = s.mem.writeBlock w.addr w.data := by
    simp only [commitWrite, hw]
  rw [commitWrite_eq, stored]
  exact
    { h with
      none := nofun
      some := fun _ => ⟨w, hw, whole⟩
      written := fun v hv _ => by
        obtain rfl := Option.some.inj (hw.symm.trans hv)
        have kept : (s.mem.writeBlock w.addr w.data).readBlock w.addr w.data.length =
            w.data.map some := Memory.readBlock_writeBlock (by omega)
        rwa [whole] at kept }

/-- Every outcome of a handler meets the invariant of the device's side again. -/
theorem PhaseStep.deviceOk {s t : State} (h : PhaseStep s t) (hm : s.mode = .idle)
    (hd : DeviceOk s) : DeviceOk t := by
  cases h with
  | fault c => exact raiseFault_deviceOk c s
  | dummyByte phase | cmd0 phase | cmd8 phase | echoByte phase | cmd16 phase | cmd17 phase
  | readAck phase | token phase | tokenWait phase =>
    exact deviceOk_of_noWrite
      (by simp [phase, Phase.isWrite, issueCmd0, issueCmd8, issueCmd16, issueCmd17])
      (hd.none (by rw [phase]; rfl))
  | cmd1 phase =>
    refine deviceOk_of_noWrite rfl (hd.none ?_)
    rcases phase with phase | phase <;> rw [phase] <;> rfl
  | metadataByte rx phase | recovered rx phase =>
    obtain ⟨c, a, m, e⟩ := captureByte_eq rx s
    rw [e]
    exact deviceOk_of_noWrite (by simp [phase, Phase.isWrite, recoverAndEnterReady])
      (hd.none (by rw [phase]; rfl))
  | writeAck phase step =>
    refine hd.congr rfl id rfl rfl rfl rfl ?_
    rw [payloadSent_packet phase hm, step]
    exact payloadSent_packet phase hm
  | metadataPayload phase variant first last =>
    exact sendPayloadByte_deviceOk hd phase hm first last fun _ => rfl
  | dataPayload phase variant first last =>
    obtain ⟨p, n, e⟩ := takeAnswer_eq s
    rw [e]
    exact sendPayloadByte_deviceOk { hd with } phase hm first last fun e =>
      by cases variant.symm.trans e
  | filler phase first last =>
    refine hd.congr rfl id rfl rfl rfl rfl ?_
    rw [payloadSent_packet phase hm, payloadSent_packet (by exact phase) (by exact hm),
      transmit_step]
    bv_omega
  | packetEnd phase step =>
    refine hd.congr (by rw [phase]; rfl) nofun rfl rfl rfl rfl ?_
    rw [payloadSent_packet phase hm, payloadSent_afterPacket (by simp)]
    bv_omega
  | accepted phase | firstStatus phase =>
    exact hd.transmit_afterPacket _ _ (by rw [phase]; decide)
  | busy phase step => exact { hd with }
  | stored phase step => exact issueCmd13_commitWrite_deviceOk hd phase
  | metadataDone phase variant step => exact writeDecision_deviceOk _
  | dataDone phase variant step => exact deviceOk_of_noWrite rfl rfl

theorem byteEvent_deviceOk {rx : Byte} {s t : State} (hs : RegistersOk s) (hd : DeviceOk s)
    (h : byteEvent rx s = .next t) : DeviceOk t := by
  obtain ⟨-, hf, -⟩ := byteEvent_next h
  rcases byteEvent_outcome h with ⟨hm, rfl⟩ | ⟨hm, rfl⟩ | ⟨hm, hstep⟩
  · exact frameStep_deviceOk hd hm
  · exact { hd with }
  · exact hstep.deviceOk (hs.examined hf hm).mode hd.examining

/-- Every row keeps the invariant of the device's side, and of the registers with it. -/
theorem exec_registersOk_deviceOk {i : Instr} {s t : State} (hs : RegistersOk s) (hd : DeviceOk s)
    (h : exec i s = .next t) : RegistersOk t ∧ DeviceOk t := by
  refine @exec_keeps (fun s => RegistersOk s ∧ DeviceOk s) ?event ?reset ?rejected ?paused
    ?decision ?answers i s t ⟨hs, hd⟩ h
  case event =>
    exact fun _ _ _ ⟨hs, hd⟩ h => ⟨byteEvent_registersOk hs h, byteEvent_deviceOk hs hd h⟩
  case reset => exact fun s _ => ⟨resetBlock_registersOk s, resetBlock_deviceOk s⟩
  case rejected => exact fun _ ⟨hs, hd⟩ => ⟨{ hs with }, { hd with }⟩
  case paused => exact fun _ ⟨hs, hd⟩ hp _ => ⟨pause_kept_registersOk hs hp, { hd with }⟩
  case decision =>
    exact fun s ⟨hs, _⟩ hp _ =>
      ⟨writeDecision_ready_registersOk hs hp, writeDecision_deviceOk s⟩
  case answers => exact fun _ _ ⟨hs, hd⟩ => ⟨{ hs with }, { hd with }⟩

/-! ### The canonical form of the device's address space -/

theorem commitWrite_mem_wf {s : State} (h : s.mem.wf = true) : (commitWrite s).mem.wf = true := by
  unfold commitWrite
  split
  · exact h
  · exact Memory.wf_writeBlock _ _ h

@[simp] theorem writeDecision_mem (s : State) : (writeDecision s).mem = s.mem := by
  unfold writeDecision
  split <;> rfl

@[simp] theorem frameStep_mem (s : State) : (frameStep s).mem = s.mem := by
  unfold frameStep
  split <;> rfl

/-- A handler changes the device only by forgetting the abandoned block or storing the completed one. -/
theorem PhaseStep.mem_wf {s t : State} (h : PhaseStep s t) (hm : s.mem.wf = true) :
    t.mem.wf = true := by
  cases h with
  | fault c => rw [raiseFault_eq]; exact abandonWrite_mem_wf hm
  | stored => exact commitWrite_mem_wf hm
  | metadataByte rx | recovered rx =>
    obtain ⟨c, a, m, e⟩ := captureByte_eq rx s
    rw [e]
    exact hm
  | dataPayload =>
    obtain ⟨p, n, e⟩ := takeAnswer_eq s
    rw [e]
    exact hm
  | metadataDone => rw [writeDecision_mem]; exact hm
  | dummyByte | cmd0 | cmd8 | echoByte | cmd1 | cmd16 | cmd17 | readAck | token | tokenWait
  | writeAck | metadataPayload | filler | packetEnd | accepted | busy | firstStatus
  | dataDone => exact hm

theorem byteEvent_mem_wf {rx : Byte} {s t : State} (hs : s.mem.wf = true)
    (h : byteEvent rx s = .next t) : t.mem.wf = true := by
  rcases byteEvent_outcome h with ⟨-, rfl⟩ | ⟨-, rfl⟩ | ⟨-, hstep⟩
  · rw [frameStep_mem]; exact hs
  · exact hs
  · obtain ⟨m, k, e⟩ := examining_eq s
    exact hstep.mem_wf (by rw [e]; exact hs)

theorem exec_mem_wf {i : Instr} {s t : State} (hs : s.mem.wf = true) (h : exec i s = .next t) :
    t.mem.wf = true := by
  refine @exec_keeps (fun s => s.mem.wf = true) ?event ?reset ?rejected ?paused ?decision
    ?answers i s t hs h
  case event => exact fun _ _ _ => byteEvent_mem_wf
  case reset => intro s hs; rw [resetBlock_eq]; exact abandonWrite_mem_wf hs
  case rejected => exact fun _ hs => hs
  case paused => exact fun _ hs _ _ => hs
  case decision => intro s hs _ _; rw [writeDecision_mem]; exact hs
  case answers => exact fun _ _ hs => hs

/-! ### All invariants: at reset and along every step -/

/-- Settles O48: the registers are those of R50, and nothing is under way or known on the device. -/
theorem resetMeetsTheInvariants : Obligations.ResetMeetsTheInvariants :=
  ⟨resetHoldsTheTableValues.registersOk rfl, deviceOk_of_noWrite rfl rfl, rfl⟩

/-- Settles O51: a `pay` line touches the payload source only, any other line runs a row, and every row
keeps the invariants. -/
theorem stepKeepsEveryInvariant : Obligations.StepKeepsEveryInvariant := by
  intro s t hs hd hm h
  rcases step_next h with ⟨answers, rest, -, rfl⟩ | ⟨op, rest, i, -, -, h⟩
  · exact ⟨{ hs with }, { hd with }, hm⟩
  · have taken : RegistersOk (s.taking rest) := { hs with }
    obtain ⟨registers, device⟩ := exec_registersOk_deviceOk taken { hd with } h
    exact ⟨registers, device, exec_mem_wf (by exact hm) h⟩

/-! ### The cursor after bring-up (R38, R252) -/

/-- What becomes of the cursor after bring-up: it stays, a data block's CMD24 takes it on by one block,
or going back to PowerOnClock clears it. -/
def CursorMoved (s t : State) : Prop :=
  t.cursor = s.cursor ∨
  (t.cursor = s.cursor + 128 ∧ t.phase = .writing ∧ t.variant = .data ∧
    t.pending = some ⟨s.cursor, []⟩) ∨
  (t.cursor = 0 ∧ t.phase = .powerOnClock)

theorem writeDecision_cursorMoved (s : State) : CursorMoved s (writeDecision s) := by
  unfold writeDecision
  split
  · exact .inr (.inl ⟨rfl, rfl, rfl, rfl⟩)
  · exact .inl rfl

theorem PhaseStep.cursorMoved {s t : State} (h : PhaseStep s t) (hb : s.phase.isBringUp = false) :
    CursorMoved s t := by
  cases h with
  | fault c => rw [raiseFault_eq]; exact .inr (.inr ⟨rfl, rfl⟩)
  | metadataByte _ phase | recovered _ phase => rw [phase] at hb; cases hb
  | dataPayload =>
    obtain ⟨p, n, e⟩ := takeAnswer_eq s
    rw [e]
    exact .inl rfl
  | stored => rw [commitWrite_eq]; exact .inl rfl
  | metadataDone => exact writeDecision_cursorMoved _
  | dummyByte | cmd0 | cmd8 | echoByte | cmd1 | cmd16 | cmd17 | readAck | token | tokenWait
  | writeAck | metadataPayload | filler | packetEnd | accepted | busy | firstStatus
  | dataDone => exact .inl rfl

theorem frameStep_cursor (s : State) : (frameStep s).cursor = s.cursor := by
  unfold frameStep
  split <;> rfl

theorem byteEvent_cursorMoved {rx : Byte} {s t : State} (hb : s.phase.isBringUp = false)
    (h : byteEvent rx s = .next t) : CursorMoved s t := by
  rcases byteEvent_outcome h with ⟨-, rfl⟩ | ⟨-, rfl⟩ | ⟨-, hstep⟩
  · exact .inl (frameStep_cursor _)
  · exact .inl rfl
  · have moved := hstep.cursorMoved (by simpa using hb)
    obtain ⟨m, k, e⟩ := examining_eq s
    rwa [e] at moved

theorem execInitialize_next {s t : State} (h : execInitialize s = .next t) : t = resetBlock s := by
  unfold execInitialize at h
  split at h
  · cases h
  · cases h; rfl

theorem execRequestWrite_next {available : Bool} {s t : State}
    (h : execRequestWrite available s = .next t) :
    t = reject s ∨ t = pause s ∨ t = writeDecision s := by
  unfold execRequestWrite at h
  split at h
  · cases h
  split at h
  · cases h; exact .inl rfl
  split at h
  · cases h; exact .inr (.inl rfl)
  · cases h; exact .inr (.inr rfl)

/-- Settles O44: line by line; the `rw` line's WriteDecision and the event after a metadata block take
the cursor on, `init` and a fault clear it. -/
theorem cursorOnlyAdvancesByOneBlock : Obligations.CursorOnlyAdvancesByOneBlock := by
  intro s t op rest _ hscript hop hb h
  cases op with
  | init =>
    rw [step_of_decode hscript rfl] at h
    rw [execInitialize_next h, resetBlock_eq]
    exact .inr (.inr ⟨rfl, rfl⟩)
  | ev rx =>
    rw [step_of_decode hscript rfl] at h
    have moved : CursorMoved (s.taking rest) t := byteEvent_cursorMoved hb h
    exact moved
  | rw available =>
    rw [step_of_decode hscript rfl] at h
    rcases execRequestWrite_next h with rfl | rfl | rfl
    · exact .inl rfl
    · exact .inl rfl
    · exact writeDecision_cursorMoved (s.taking rest)
  | pay answers =>
    rw [step_pay hscript] at h
    cases h
    exact .inl rfl
  | wire bytes => cases hop

end Sys2Proof.Machine

/-! ## The device's side, memory, and what bring-up recovers from it (20_memory.md) -/

namespace Sys2Proof.Machine

/-! ### What every row and every step keeps -/

/-- Settles O50. -/
theorem environmentRowsKeepTheDevice : Obligations.EnvironmentRowsKeepTheDevice :=
  fun _ _ _ hs hd h => (exec_registersOk_deviceOk hs hd h).2

/-- Settles O52: a `pay` line leaves the device alone, any other line runs a row, and every row keeps
the canonical form. -/
theorem stepKeepsMemoryCanonical : Obligations.StepKeepsMemoryCanonical := by
  intro s t hm h
  rcases step_next h with ⟨answers, rest, -, rfl⟩ | ⟨op, rest, i, -, -, h⟩
  · exact hm
  · exact exec_mem_wf (s := s.taking rest) hm h

/-! ### What bring-up recovers from a metadata block (R235, R343) -/

theorem recover_of_first_two_equal (v c : Word) : recover v v c = v := if_pos rfl

/-- Of the region starts, 0 alone is replaced by the default (R235). -/
theorem validate_of_regionStart {v : Word} (h : v &&& 0x3FFFF = 0) :
    validate v = if v = 0 then 0x00040000 else v + 0x00040000 := by
  have aligned : ¬ v &&& qMask ≠ 0 := not_not.mpr h
  simp only [validate, aligned, or_false]
  rfl

/-- Settles O46: each copy is the cursor's four bytes put together again, and equal copies recover it. -/
theorem writtenMetadataRecoversOneRegionOn : Obligations.WrittenMetadataRecoversOneRegionOn := by
  rintro cursor hstart _ rfl a b c
  have ha : a = cursor := be32_byteK cursor
  have hb : b = cursor := be32_byteK cursor
  have hc : c = cursor := be32_byteK cursor
  refine ⟨ha, hb, hc, ?_⟩
  rw [ha, hb, recover_of_first_two_equal, validate_of_regionStart hstart]

/-! ### The metadata block is on the device before the region's first block (R84, R261) -/

/-- The busy poll of a metadata block is over: block 0 reads as the metadata payload. -/
theorem DeviceOk.metadataStored {s : State} (h : DeviceOk s) (hp : s.phase = .awaitStatus)
    (hv : s.variant = .super) :
    s.mem.readBlock 0 128 = (superPayload s.cursor).map Option.some := by
  obtain ⟨w, hw, hlen⟩ := h.some (by rw [hp]; rfl)
  have whole : w.data.length = 128 := by rw [hlen, payloadSent_afterPacket (by rw [hp]; decide)]
  have payload : w.data = superPayload s.cursor := by
    rw [h.superData w hw hv, whole, List.take_of_length_le (by simp)]
  have stored := h.written w hw hp
  rwa [h.superAddr w hw hv, payload] at stored

theorem writeDecision_of_superDone {s : State} (h : s.superDone = true) :
    writeDecision s = writeData (select s) :=
  if_pos (.inr h)

/-- The one way from AwaitStatus to Writing: the second status byte of a metadata block (R261). -/
theorem handleAwaitStatus_to_writing {rx : Byte} {s : State} (hp : s.phase = .awaitStatus)
    (ht : (handleAwaitStatus rx s).phase = .writing) :
    s.variant = .super ∧
      handleAwaitStatus rx s = writeData (select { s with superDone := true, pending := none }) := by
  unfold handleAwaitStatus awaitStatusDone at ht ⊢
  split at ht
  · rw [raiseFault_eq] at ht; cases ht
  next zero =>
  split at ht
  · cases hp.symm.trans ht
  next second =>
  split at ht
  · next super =>
    rw [if_neg zero, if_neg second, super]
    exact ⟨rfl, writeDecision_of_superDone rfl⟩
  · cases ht

theorem frameStep_phase (s : State) : (frameStep s).phase = s.phase := by
  unfold frameStep
  split <;> rfl

/-- An event that opens a write from AwaitStatus opens the data block's, after a metadata block. -/
theorem byteEvent_awaitStatus_to_writing {rx : Byte} {s t : State} (hp : s.phase = .awaitStatus)
    (h : byteEvent rx s = .next t) (ht : t.phase = .writing) :
    s.variant = .super ∧ t.variant = .data ∧ t.pending = some ⟨s.cursor, []⟩ ∧ t.mem = s.mem := by
  obtain ⟨-, -, ⟨-, rfl⟩ | ⟨-, -, rfl⟩ | ⟨-, h⟩⟩ := byteEvent_cases h
  · rw [frameStep_phase] at ht; cases hp.symm.trans ht
  · cases hp.symm.trans ht
  · have examined : (examining s).phase = .awaitStatus := by rw [examining_phase, hp]
    simp only [phaseDispatch, examined] at h
    cases h
    obtain ⟨super, opened⟩ := handleAwaitStatus_to_writing examined ht
    obtain ⟨m, k, e⟩ := examining_eq s
    rw [opened]
    rw [e] at super ⊢
    exact ⟨super, rfl, rfl, rfl⟩

/-- Settles O45: the event ends a metadata block, which by the device's invariant is stored at 0. -/
theorem metadataIsWrittenBeforeTheRegion : Obligations.MetadataIsWrittenBeforeTheRegion := by
  intro s t rx hs hd hp h ht
  obtain ⟨super, variant, opened, kept⟩ := byteEvent_awaitStatus_to_writing hp h ht
  refine ⟨variant, opened, hs.regionStart super, ?_⟩
  rw [kept]
  exact hd.metadataStored hp super

end Sys2Proof.Machine

/-! ## The encoding: the decoder and the encoder undo each other (30_encoding.md) -/

namespace Sys2Proof

open Machine

/-! ### Units by their length (R117) -/

theorem decodeWire_readPacket {bytes : List Byte} (p : Position) (h : bytes.length = 130) :
    decodeWire p bytes = .ok (.readPacketIn bytes) := by
  unfold decodeWire
  split
  case h_5 => rw [if_pos h]
  all_goals cases h

theorem decodeWire_writePacket {bytes : List Byte} (p : Position) (h : bytes.length = 131) :
    decodeWire p bytes = decodePacket bytes := by
  unfold decodeWire
  split
  case h_5 => rw [if_neg (by omega), if_pos h]
  all_goals cases h

/-! ### The accept token (R115) -/

/-- A byte with low nibble 5 is its high nibble and that 5. -/
theorem highNibble_append_five {b : Byte} (h : b.extractLsb' 0 4 = 0x5) :
    b.extractLsb' 4 4 ++ (0x5 : BitVec 4) = b := by
  calc b.extractLsb' 4 4 ++ (0x5 : BitVec 4)
      = b.extractLsb' 4 4 ++ b.extractLsb' 0 4 := by rw [h]
    _ = b.extractLsb' 0 (4 + 4) := BitVec.extractLsb'_append_extractLsb'_eq_extractLsb' rfl
    _ = b := BitVec.extractLsb'_eq_self

/-- No accept token is another row's word, and its high nibble is read back. -/
theorem decodeByte_acceptToken (p : Position) (high : BitVec 4) :
    decodeByte p (high ++ (0x5 : BitVec 4)) = .ok (.dataAcceptIn high) := by
  have otherWords : ∀ n : BitVec 4, let b : Byte := n ++ (0x5 : BitVec 4)
      b ≠ 0x00 ∧ b ≠ 0x01 ∧ b ≠ 0xFE ∧ b ≠ 0xFF := by decide
  have nibbles : ∀ n : BitVec 4, (n ++ (0x5 : BitVec 4)).extractLsb' 0 4 = 0x5 ∧
      (n ++ (0x5 : BitVec 4)).extractLsb' 4 4 = n := by decide
  obtain ⟨h00, h01, hFE, hFF⟩ := otherWords high
  obtain ⟨low, up⟩ := nibbles high
  rw [decodeByte, if_neg h00, if_neg h01, if_neg hFE, if_neg hFF, if_pos low, up]

/-! ### The positions of the shared words exclude each other (R117) -/

theorem Position.not_awaitsResponse_of_awaitsToken {p : Position} (h : p.awaitsToken = true) :
    p.awaitsResponse = false := by
  simp_all [awaitsToken, awaitsResponse]

theorem Position.not_awaitsResponse_of_pollsBusy {p : Position} (h : p.pollsBusy = true) :
    p.awaitsResponse = false := by
  simp_all [pollsBusy, awaitsResponse]

theorem Position.not_awaitsToken_of_pollsBusy {p : Position} (h : p.pollsBusy = true) :
    p.awaitsToken = false := by
  simp_all [pollsBusy, awaitsToken]

/-! ### What the decoder accepts -/

/-- `i` is a well-formed row whose code is `op`, read as that row at `p`. -/
def IsCodeOf (op : ScriptOp) (i : Instr) (p : Position) : Prop :=
  encode i = op ∧ i.wf = true ∧ readableAt i p = true

theorem decodeByte_accepts {p : Position} {b : Byte} {i : Instr} (h : decodeByte p b = .ok i) :
    IsCodeOf (.wire [b]) i p := by
  unfold decodeByte at h
  split at h
  · subst b; cases h; exact ⟨rfl, rfl, rfl⟩
  split at h
  · subst b; cases h; exact ⟨rfl, rfl, rfl⟩
  split at h
  · subst b
    split at h
    · cases h; exact ⟨rfl, rfl, ‹_›⟩
    · cases h; exact ⟨rfl, rfl, by simp_all [readableAt]⟩
  split at h
  · subst b
    split at h
    · cases h; exact ⟨rfl, rfl, ‹_›⟩
    split at h
    · cases h; exact ⟨rfl, rfl, ‹_›⟩
    split at h
    · cases h; exact ⟨rfl, rfl, ‹_›⟩
    · cases h; exact ⟨rfl, rfl, by simp_all [readableAt]⟩
  split at h
  next low =>
    cases h
    exact ⟨congrArg (fun b => ScriptOp.wire [b]) (highNibble_append_five low), rfl, rfl⟩
  · cases h

/-- CMD24 takes its argument from the frame; each other frame is one fixed list of bytes (R106). -/
theorem decodeFrame_accepts {b0 b1 b2 b3 b4 b5 : Byte} {i : Instr} (p : Position)
    (h : decodeFrame b0 b1 b2 b3 b4 b5 = .ok i) : IsCodeOf (.wire [b0, b1, b2, b3, b4, b5]) i p := by
  unfold decodeFrame at h
  split at h
  next cmd24 =>
    obtain ⟨rfl, rfl⟩ := cmd24
    obtain ⟨h0, h1, h2, h3⟩ := byteK_be32 b1 b2 b3 b4
    cases h
    refine ⟨?_, rfl, rfl⟩
    simp only [encode, frameBytes, h0, h1, h2, h3]
    rfl
  iterate 6
    split at h
    next fixed => rw [fixed]; cases h; exact ⟨rfl, rfl, rfl⟩
  cases h

/-- A packet of 131 bytes is its token, its 128 payload bytes and the two fillers (R108). -/
theorem decodePacket_accepts {bytes : List Byte} {i : Instr} (p : Position)
    (hl : bytes.length = 131) (h : decodePacket bytes = .ok i) : IsCodeOf (.wire bytes) i p := by
  unfold decodePacket at h
  split at h
  next token =>
    split at h
    next fillers =>
      cases h
      obtain ⟨rest, rfl⟩ : ∃ rest, bytes = dataToken :: rest := List.head?_eq_some_iff.mp token
      have tail : rest.drop 128 = [Config.fillerByte, Config.fillerByte] := fillers
      refine ⟨?_, by simp_all [Instr.wf], rfl⟩
      simp only [encode, packetBytes, List.drop_one, List.tail_cons]
      rw [← tail, List.take_append_drop]
    · cases h
  · cases h

theorem decodeWire_accepts {p : Position} {bytes : List Byte} {i : Instr}
    (h : decodeWire p bytes = .ok i) : IsCodeOf (.wire bytes) i p := by
  unfold decodeWire at h
  split at h
  · exact decodeByte_accepts h
  · split at h
    next status => rw [status]; cases h; exact ⟨rfl, rfl, rfl⟩
    · cases h
  · split at h
    next echo => rw [echo]; cases h; exact ⟨rfl, rfl, rfl⟩
    · cases h
  · exact decodeFrame_accepts p h
  · split at h
    next length => cases h; exact ⟨rfl, by simpa [Instr.wf] using length, rfl⟩
    split at h
    · exact decodePacket_accepts p ‹_› h
    · cases h

/-- Settles O59: a unit of the bus by its length, a host operation as its own script line. -/
theorem encodeOfDecode : Obligations.EncodeOfDecode := by
  intro p op i h
  cases op with
  | init | ev rx | rw available => cases h; exact ⟨rfl, rfl, rfl⟩
  | pay answers => cases h
  | wire bytes => exact decodeWire_accepts h

/-! ### What the encoder writes is read back -/

theorem decode_encode_cmd24 (p : Position) (addr : Word) :
    decode p (encode (.cmd24 addr)) = .ok (.cmd24 addr) :=
  congrArg (fun a => Except.ok (Instr.cmd24 a)) (be32_byteK addr)

theorem decode_encode_dataPacketOut {payload : List Byte} (p : Position)
    (h : payload.length = 128) :
    decode p (encode (.dataPacketOut payload)) = .ok (.dataPacketOut payload) := by
  have length : (packetBytes payload).length = 131 := by simp [packetBytes, h]
  simp only [encode, decode, decodeWire_writePacket p length]
  simp [decodePacket, packetBytes, ← h]

/-- Only the rows of `0xFF` and `0xFE` need the position: elsewhere the code alone decides. -/
theorem decode_encode {i : Instr} {p : Position} (hw : i.wf = true) (hr : readableAt i p = true) :
    decode p (encode i) = .ok i := by
  cases i with
  | cmd0 | cmd8 | cmd1 | cmd16 | cmd17 | cmd13 | r1Idle | r1Ready | cmd8Echo | cmd13Status
  | initializeOp | onByteTransferred rx | requestWrite available => rfl
  | cmd24 addr => exact decode_encode_cmd24 p addr
  | dataPacketOut payload => exact decode_encode_dataPacketOut p (by simpa [Instr.wf] using hw)
  | readPacketIn bytes => exact decodeWire_readPacket p (by simpa [Instr.wf] using hw)
  | dataAcceptIn high => exact decodeByte_acceptToken p high
  | readTokenIn => exact if_pos hr
  | dataTokenOut => exact if_neg (by simpa [readableAt] using hr)
  | responseWaitIn => exact if_pos hr
  | tokenWaitIn =>
    exact (if_neg (by simp [Position.not_awaitsResponse_of_awaitsToken hr])).trans (if_pos hr)
  | busyIn =>
    exact (if_neg (by simp [Position.not_awaitsResponse_of_pollsBusy hr])).trans
      ((if_neg (by simp [Position.not_awaitsToken_of_pollsBusy hr])).trans (if_pos hr))
  | idleOut =>
    simp only [readableAt, Bool.and_eq_true, Bool.not_eq_true'] at hr
    obtain ⟨⟨noResponse, noToken⟩, notBusy⟩ := hr
    simp [encode, decode, decodeWire, decodeByte, idleTx, noResponse, noToken, notBusy]

theorem exists_readableAt (i : Instr) : ∃ p : Position, readableAt i p = true := by
  cases i with
  | readTokenIn | tokenWaitIn => exact ⟨⟨.awaitDataToken, .idle, 0⟩, rfl⟩
  | busyIn => exact ⟨⟨.awaitWriteBusy, .idle, 1⟩, rfl⟩
  | responseWaitIn => exact ⟨⟨.awaitReset, .awaitingResponse, 0⟩, rfl⟩
  | _ => exact ⟨Position.afterReset, rfl⟩

/-- Settles O60: row by row, and a position for each row. -/
theorem decodeOfEncode : Obligations.DecodeOfEncode :=
  ⟨fun _ _ => decode_encode, exists_readableAt⟩

/-- Settles O57: each word by evaluation, at the position after reset. -/
theorem specWordsDecode : Obligations.SpecWordsDecode :=
  ⟨rfl, rfl, rfl, rfl, rfl, rfl, rfl, rfl⟩

end Sys2Proof

/-! ## The outbound rows: which unit goes out where (30_encoding.md) -/

namespace Sys2Proof.Machine

/-! ### A unit that is due, and one that is not -/

theorem examines_of_not_sending {s : State} {rx : Byte} (hm : s.mode ≠ .sendingCommand)
    (hx : rx ≠ 0xFF) : examines s rx := by
  unfold examines
  cases e : s.mode with
  | idle => exact .inl rfl
  | awaitingResponse => exact .inr ⟨rfl, hx⟩
  | sendingCommand => exact absurd e hm

/-- A unit that is due goes out in the phase's handler, whose byte is not the `0xFF` that is skipped. -/
theorem handOver_examined {due : Bool} {rx : Byte} {s : State} (hs : s.started = true)
    (hf : s.inFlight = true) (hm : s.mode ≠ .sendingCommand) (hx : rx ≠ 0xFF) (hd : due = true) :
    handOver due rx s = phaseDispatch rx (examining s) := by
  rw [hd, handOver_due hs hf hm, byteEvent_examined hs hf (examines_of_not_sending hm hx)]

theorem examining_of_idle {s : State} (hm : s.mode = .idle) :
    examining s = { s with inFlight := false } := by
  simp only [examining, hm]

theorem handOver_notDue {due : Bool} {s : State} (rx : Byte) (hs : s.started = true)
    (hf : s.inFlight = true) (hm : s.mode ≠ .sendingCommand) (hd : due = false) :
    handOver due rx s = .refused .unitNotDue := by
  simp [handOver, hs, hf, hm, hd]

theorem handOver_sendingCommand {s : State} (due : Bool) (rx : Byte) (hs : s.started = true)
    (hf : s.inFlight = true) (hm : s.mode = .sendingCommand) :
    handOver due rx s = .refused .frameOutstanding := by
  simp [handOver, hs, hf, hm]

theorem not_sending_of_idle {s : State} (hm : s.mode = .idle) : s.mode ≠ .sendingCommand := by
  rw [hm]; decide

/-! ### The commands of bring-up (R174 to R178) -/

theorem execCmd0_issues {s : State} (hs : s.started = true) (hf : s.inFlight = true)
    (hp : s.phase = .powerOnClock) (hm : s.mode = .idle) (hk : 100 ≤ s.step) :
    exec .cmd0 s = .next
      { s.frameIssued ⟨0x40, 0x00, 0x00, 0x00, 0x00, 0x95⟩ .awaitReset with selected := true } := by
  have counted : ¬ s.step < powerOnDummyBytes := BitVec.not_lt.mpr hk
  have due : cmd0Due s = true := by simp [cmd0Due, hp, hm, counted]
  calc exec .cmd0 s
      = byteEvent idleTx s := by
        rw [exec, execCmd0, due, handOver_due hs hf (not_sending_of_idle hm)]
    _ = .next (handlePowerOnClock { s with inFlight := false }) := by
        rw [byteEvent_idle _ hs hf hm]; simp only [phaseDispatch, hp]
    _ = _ := by rw [handlePowerOnClock, if_neg (by exact counted)]; rfl

theorem execCmd8_issues {s : State} (hs : s.started = true) (hf : s.inFlight = true)
    (hp : s.phase = .awaitReset) (hm : s.mode ≠ .sendingCommand) :
    exec .cmd8 s = .next
      (s.frameIssued ⟨0x48, 0x00, 0x00, 0x01, 0xAA, 0x87⟩ .awaitInterfaceCheck) := by
  rw [exec, execCmd8, handOver_examined hs hf hm (by decide) (by simp [hp])]
  simp only [phaseDispatch, examining_phase, hp]
  exact congrArg _ (issue_examining 8 0x000001AA _ s)

theorem execCmd1_after_echo {s : State} (hs : s.started = true) (hf : s.inFlight = true)
    (hp : s.phase = .awaitInterfaceCheck) (hm : s.mode = .idle) (hk : s.step = 4) :
    exec .cmd1 s = .next (s.frameIssued ⟨0x41, 0x00, 0x00, 0x00, 0x00, 0x00⟩ .awaitReady) := by
  have due : echoLastDue s = true := by simp [echoLastDue, hp, hm, hk]
  rw [exec, execCmd1, if_pos hp, due, handOver_due hs hf (not_sending_of_idle hm),
    byteEvent_idle _ hs hf hm]
  simp only [phaseDispatch, hp, handleAwaitInterfaceCheck, hk]
  rfl

theorem execCmd1_polls {s : State} (hs : s.started = true) (hf : s.inFlight = true)
    (hp : s.phase = .awaitReady) (hm : s.mode ≠ .sendingCommand) :
    exec .cmd1 s = .next (s.frameIssued ⟨0x41, 0x00, 0x00, 0x00, 0x00, 0x00⟩ .awaitReady) := by
  rw [exec, execCmd1, if_neg (by simp [hp]),
    handOver_examined hs hf hm (by decide) (by simp [hp])]
  simp only [phaseDispatch, examining_phase, hp]
  exact congrArg _ (issue_examining 1 0 _ s)

theorem execCmd16_issues {s : State} (hs : s.started = true) (hf : s.inFlight = true)
    (hp : s.phase = .awaitReady) (hm : s.mode ≠ .sendingCommand) :
    exec .cmd16 s = .next
      (s.frameIssued ⟨0x50, 0x00, 0x00, 0x00, 0x80, 0x00⟩ .awaitBlockLenAck) := by
  rw [exec, execCmd16, handOver_examined hs hf hm (by decide) (by simp [hp])]
  simp only [phaseDispatch, examining_phase, hp]
  exact congrArg _ (issue_examining 16 0x80 _ s)

theorem execCmd17_issues {s : State} (hs : s.started = true) (hf : s.inFlight = true)
    (hp : s.phase = .awaitBlockLenAck) (hm : s.mode ≠ .sendingCommand) :
    exec .cmd17 s = .next
      (s.frameIssued ⟨0x51, 0x00, 0x00, 0x00, 0x00, 0x00⟩ .awaitReadAck) := by
  rw [exec, execCmd17, handOver_examined hs hf hm (by decide) (by simp [hp])]
  simp only [phaseDispatch, examining_phase, hp]
  exact congrArg _ (issue_examining 17 0 _ s)

/-! ### CMD13: the block under way is stored (R180, R76) -/

theorem commitWrite_mem_of_none {s : State} (h : s.pending = none) :
    (commitWrite s).mem = s.mem := by
  simp only [commitWrite, h]

theorem commitWrite_mem_of_some {s : State} {w : BlockWrite} (h : s.pending = some w) :
    (commitWrite s).mem = s.mem.writeBlock w.addr w.data := by
  simp only [commitWrite, h]

theorem commitWrite_inFlight (s : State) (f : Bool) :
    commitWrite { s with inFlight := f } =
      { s with inFlight := f, mem := (commitWrite s).mem } := by
  unfold commitWrite
  cases s.pending <;> rfl

/-- A block written reads as written, and every byte outside it as before. -/
theorem writeBlock_stores (m : Memory) {w : BlockWrite} (h : w.data.length = 128) :
    (m.writeBlock w.addr w.data).readBlock w.addr 128 = w.data.map some ∧
      ∀ a : Nat, ¬ inBlock w.addr a → (m.writeBlock w.addr w.data).read a = m.read a := by
  refine ⟨?_, fun a ha => Memory.read_writeBlock_other fun k hk e => ha ⟨k, h ▸ hk, e⟩⟩
  rw [← h]
  exact Memory.readBlock_writeBlock (by omega)

theorem execCmd13_issues {s : State} (hs : s.started = true) (hf : s.inFlight = true)
    (hp : s.phase = .awaitWriteBusy) (hm : s.mode = .idle) (hk : s.step ≠ 0) :
    exec .cmd13 s = .next
      { s.frameIssued ⟨0x4D, 0x00, 0x00, 0x00, 0x00, 0x00⟩ .awaitStatus with
        mem := (commitWrite s).mem } := by
  have due : busyPollDue s = true := by simpa [busyPollDue, hp, hm] using hk
  rw [exec, execCmd13, handOver_examined hs hf (not_sending_of_idle hm) (by decide) due]
  simp only [phaseDispatch, examining_phase, hp]
  rw [examining_of_idle hm, handleAwaitWriteBusy, if_neg (by exact hk), handleBusyPoll,
    if_neg (by decide), commitWrite_inFlight]
  rfl

/-! ### CMD24: the WriteDecision (R179, R252) -/

/-- The state in which a data block's CMD24 has been issued (R252). -/
def State.dataWriteOpened (s : State) : State :=
  { s.frameIssued
      ⟨0x58, byteK 0 s.cursor, byteK 1 s.cursor, byteK 2 s.cursor, byteK 3 s.cursor, 0x00⟩
      .writing with
    selected := true, cursor := s.cursor + 128, superDone := false, variant := .data
    pending := some ⟨s.cursor, []⟩ }

/-- The state in which the metadata block's CMD24 has been issued (R252). -/
def State.superWriteOpened (s : State) : State :=
  { s.frameIssued ⟨0x58, 0, 0, 0, 0, 0x00⟩ .writing with
    selected := true, variant := .super, pending := some ⟨0, []⟩ }

theorem writeDecision_data {s : State} (h : s.cursor &&& 0x3FFFF ≠ 0 ∨ s.superDone = true) :
    writeDecision s = s.dataWriteOpened ∧ writeAddress s = s.cursor :=
  ⟨if_pos h, if_pos h⟩

theorem writeDecision_super {s : State} (hc : s.cursor &&& 0x3FFFF = 0)
    (hd : s.superDone = false) :
    writeDecision s = s.superWriteOpened ∧ writeAddress s = 0 := by
  have h : ¬ (s.cursor &&& qMask ≠ 0 ∨ s.superDone = true) :=
    not_or.mpr ⟨not_not.mpr hc, Bool.eq_false_iff.mp hd⟩
  exact ⟨if_neg h, if_neg h⟩

/-- In Ready CMD24 goes out at the address of the WriteDecision and at no other. -/
theorem execCmd24_ready {s t : State} {addr : Word} (hs : s.started = true)
    (hr : s.isReady = true) (h : writeDecision s = t ∧ writeAddress s = addr) :
    exec (.cmd24 addr) s = .next t ∧
      ∀ a, a ≠ addr → exec (.cmd24 a) s = .refused .unitNotDue := by
  obtain ⟨rfl, rfl⟩ := h
  constructor
  · simp [exec, execCmd24, hs, hr]
  · intro a ha
    simp [exec, execCmd24, hs, hr, ha]

/-- The second status byte of a metadata block opens the data block's write, at the cursor (R261). -/
theorem execCmd24_after_metadata {s : State} (hs : s.started = true) (hf : s.inFlight = true)
    (hp : s.phase = .awaitStatus) (hm : s.mode = .idle) (hk : s.step ≠ 0)
    (hv : s.variant = .super) :
    exec (.cmd24 s.cursor) s = .next s.dataWriteOpened ∧
      ∀ a, a ≠ s.cursor → exec (.cmd24 a) s = .refused .unitNotDue := by
  have notReady : ¬ s.isReady = true := by simp [isReady_iff, hp]
  have status : superStatusDue s = true := by simpa [superStatusDue, hp, hm, hv] using hk
  have row (a : Word) : exec (.cmd24 a) s = handOver (superStatusDue s && a == s.cursor) 0x00 s := by
    rw [exec, execCmd24, if_neg (by simp [hs]), if_neg notReady]
  constructor
  · rw [row, status, beq_self_eq_true, Bool.true_and, handOver_due hs hf (not_sending_of_idle hm),
      byteEvent_idle _ hs hf hm]
    simp only [phaseDispatch, hp, handleAwaitStatus, if_neg hk, awaitStatusDone, hv]
    exact congrArg _ (writeDecision_of_superDone rfl)
  · intro a ha
    rw [row]
    exact handOver_notDue _ hs hf (not_sending_of_idle hm) (by simp [ha])

/-- Settles O9: a rule per command row. -/
theorem commandRowsIssueTheirFrames : Obligations.CommandRowsIssueTheirFrames := by
  intro s hs
  refine ⟨execCmd0_issues hs, execCmd8_issues hs, ?cmd1, execCmd16_issues hs, execCmd17_issues hs,
    ?cmd13, ?cmd24, execCmd24_after_metadata hs⟩
  case cmd1 =>
    rintro hf (⟨hp, hm, hk⟩ | ⟨hp, hm⟩)
    · exact execCmd1_after_echo hs hf hp hm hk
    · exact execCmd1_polls hs hf hp hm
  case cmd13 =>
    intro hf hp hm hk
    refine ⟨_, execCmd13_issues hs hf hp hm hk, commitWrite_mem_of_none, fun w hw hl => ?_⟩
    rw [commitWrite_mem_of_some hw]
    exact writeBlock_stores s.mem hl
  case cmd24 =>
    intro hp hf
    have ready : s.isReady = true := (isReady_iff s).mpr ⟨hp, hf⟩
    exact ⟨fun h => execCmd24_ready hs ready (writeDecision_data h),
      fun hc hd => execCmd24_ready hs ready (writeDecision_super hc hd)⟩

/-! ### The write packet (R108 to R110) -/

section PacketDue

variable {s : State} (payload : List Byte) (hs : s.started = true) (hf : s.inFlight = true)
  (hp : s.phase = .writing) (hm : s.mode = .idle) (h1 : s.step = 1)

include hs hf hp hm h1

/-- With the token in flight the packet of a data block is the payload source's (R110). -/
theorem execDataPacketOut_data (hv : s.variant = .data) :
    exec (.dataPacketOut payload) s = streamPacket (withAnswers payload s) := by
  have due : packetDue s = true := by simp [packetDue, hp, hm, h1]
  simp only [exec, execDataPacketOut, hs, hf, due, and_self, if_true, hv]

/-- In the super variant it is the metadata payload's alone (R109). -/
theorem execDataPacketOut_super (hv : s.variant = .super) :
    exec (.dataPacketOut payload) s =
      if payload = superPayload s.cursor then streamPacket s else .refused .unitNotDue := by
  have due : packetDue s = true := by simp [packetDue, hp, hm, h1]
  simp only [exec, execDataPacketOut, hs, hf, due, and_self, if_true, hv]

end PacketDue

/-- Settles O31: the payload is put first on the source's answers and drawn from it. -/
theorem dataPacketGoesOutWhole : Obligations.DataPacketGoesOutWhole := by
  intro s p hs hf hp hm h1 hv hl
  rw [execDataPacketOut_data p hs hf hp hm h1 hv]
  exact data_packet (s := withAnswers p s) _ p List.length_replicate hs hf hp hm h1 hv hl s.payload
    rfl

/-- Settles O32: `superPayload_eq` writes the payload out. -/
theorem superPacketGoesOutWhole : Obligations.SuperPacketGoesOutWhole := by
  intro s hs hf hp hm h1 hv
  have row (q : List Byte) := execDataPacketOut_super q hs hf hp hm h1 hv
  simp only [← superPayload_eq]
  refine ⟨?_, fun other ho => by rw [row, if_neg ho]⟩
  rw [row, if_pos rfl]
  exact super_packet _ List.length_replicate hs hf hp hm h1 hv

end Sys2Proof.Machine

/-! ## The idle byte, the data token, the ignored bytes (R111, R118) -/

namespace Sys2Proof.Machine

/-! ### IDLE_OUT is an event, or due nowhere -/

theorem execIdleOut_of_some {s : State} {rx : Byte} (h : idleByte s = some rx) :
    exec .idleOut s = byteEvent rx s := by
  simp only [exec, execIdleOut, h]

theorem execIdleOut_of_none {s : State} (h : idleByte s = none) :
    exec .idleOut s = handOver false 0xFF s := by
  simp only [exec, execIdleOut, h]

theorem idleByte_of_idle {s : State} (hm : s.mode = .idle) : idleByte s = idleByteOfPhase s := by
  simp only [idleByte, hm]

theorem idleByte_of_awaitingResponse {s : State} (hm : s.mode = .awaitingResponse) :
    idleByte s = some 0xFF := by
  simp only [idleByte, hm]

theorem idleByte_of_sending {s : State} (hm : s.mode = .sendingCommand) :
    idleByte s = if s.step < 6 then none else some 0xFF := by
  simp only [idleByte, hm]

/-- An event takes the byte in flight and hands the next one over: the flag is as it was. -/
theorem transmit_completed {s : State} (b : Byte) (hf : s.inFlight = true) :
    transmit b { s with inFlight := false } = { s with outs := s.outs ++ [.transmit b] } := by
  rw [transmit, ← hf]

theorem byteEvent_sending {s : State} (rx : Byte) (hs : s.started = true)
    (hf : s.inFlight = true) (hm : s.mode = .sendingCommand) :
    byteEvent rx s = .next (frameStep { s with inFlight := false }) := by
  rw [byteEvent_eq rx hs hf]; simp only [dispatchEvent, hm]

theorem byteEvent_skip {s : State} (hs : s.started = true) (hf : s.inFlight = true)
    (hm : s.mode = .awaitingResponse) :
    byteEvent 0xFF s = .next { s with outs := s.outs ++ [.transmit 0xFF] } := by
  calc byteEvent 0xFF s
      = responseWait 0xFF { s with inFlight := false } := by
        rw [byteEvent_eq _ hs hf]; simp only [dispatchEvent, hm]
    _ = .next (transmit idleTx { s with inFlight := false }) := if_pos rfl
    _ = _ := congrArg _ (transmit_completed 0xFF hf)

theorem frameStep_completed {s : State} (hf : s.inFlight = true) (hk : ¬ s.step < 6) :
    frameStep { s with inFlight := false } =
      { s with mode := .awaitingResponse, step := 0, outs := s.outs ++ [.transmit 0xFF] } :=
  (if_neg hk).trans
    (transmit_completed (s := { s with mode := .awaitingResponse, step := 0 }) 0xFF hf)

/-! ### The idle byte, position by position -/

section Positions

variable {s : State} (hs : s.started = true) (hf : s.inFlight = true)

include hs hf

theorem execIdleOut_awaitingResponse (hm : s.mode = .awaitingResponse) :
    exec .idleOut s = .next { s with outs := s.outs ++ [.transmit 0xFF] } := by
  rw [execIdleOut_of_some (idleByte_of_awaitingResponse hm), byteEvent_skip hs hf hm]

theorem execIdleOut_busyPoll (hp : s.phase = .awaitWriteBusy) (hm : s.mode = .idle)
    (hk : s.step ≠ 0) :
    exec .idleOut s = .next { s with outs := s.outs ++ [.transmit 0xFF] } := by
  have due : idleByte s = some 0xFF := by
    simp only [idleByte_of_idle hm, idleByteOfPhase, hp, if_neg hk]
  calc exec .idleOut s
      = byteEvent 0xFF s := execIdleOut_of_some due
    _ = .next (handleAwaitWriteBusy 0xFF { s with inFlight := false }) := by
        rw [byteEvent_idle _ hs hf hm]; simp only [phaseDispatch, hp]
    _ = .next (transmit idleTx { s with inFlight := false }) := by
        rw [handleAwaitWriteBusy, if_neg (by exact hk), handleBusyPoll, if_pos rfl]
    _ = _ := congrArg _ (transmit_completed 0xFF hf)

theorem execIdleOut_frameEnd (hm : s.mode = .sendingCommand) (hk : s.step = 6) :
    exec .idleOut s = .next
      { s with mode := .awaitingResponse, step := 0, outs := s.outs ++ [.transmit 0xFF] } := by
  have whole : ¬ s.step < 6 := by rw [hk]; decide
  rw [execIdleOut_of_some ((idleByte_of_sending hm).trans (if_neg whole)),
    byteEvent_sending _ hs hf hm, frameStep_completed hf whole]

theorem execIdleOut_inFrame (hm : s.mode = .sendingCommand) (hk : s.step < 6) :
    exec .idleOut s = .refused .frameOutstanding := by
  rw [execIdleOut_of_none ((idleByte_of_sending hm).trans (if_pos hk)),
    handOver_sendingCommand _ _ hs hf hm]

theorem execIdleOut_dummyByte (hp : s.phase = .powerOnClock) (hm : s.mode = .idle)
    (hk : s.step < 100) :
    exec .idleOut s = .next
      { s with step := s.step + 1, outs := s.outs ++ [.transmit 0xFF] } := by
  have due : idleByte s = some 0xFF := by
    simp only [idleByte_of_idle hm, idleByteOfPhase, hp]
    exact if_pos hk
  calc exec .idleOut s
      = byteEvent 0xFF s := execIdleOut_of_some due
    _ = .next (handlePowerOnClock { s with inFlight := false }) := by
        rw [byteEvent_idle _ hs hf hm]; simp only [phaseDispatch, hp]
    _ = .next (transmit idleTx { s with inFlight := false, step := s.step + 1 }) := by
        rw [handlePowerOnClock, if_pos (by exact hk)]
    _ = _ := congrArg _ (transmit_completed (s := { s with step := s.step + 1 }) 0xFF hf)

theorem execIdleOut_dummyBytesDone (hp : s.phase = .powerOnClock) (hm : s.mode = .idle)
    (hk : 100 ≤ s.step) : exec .idleOut s = .refused .unitNotDue := by
  have notDue : idleByte s = none := by
    simp only [idleByte_of_idle hm, idleByteOfPhase, hp]
    exact if_neg (BitVec.not_lt.mpr hk)
  rw [execIdleOut_of_none notDue, handOver_notDue _ hs hf (not_sending_of_idle hm) rfl]

/-- Below 250 waits one more is no timeout (R207). -/
theorem execIdleOut_tokenWait (hp : s.phase = .awaitDataToken) (hm : s.mode = .idle)
    (hk : s.waitCount < 250) :
    exec .idleOut s = .next
      { s with waitCount := s.waitCount + 1, outs := s.outs ++ [.transmit 0xFF] } := by
  have due : idleByte s = some 0xFF := by
    simp only [idleByte_of_idle hm, idleByteOfPhase, hp]
    exact if_pos hk
  have tolerated : ¬ s.waitCount + 1 > dataTokenWaitMax := by
    unfold dataTokenWaitMax
    bv_omega
  calc exec .idleOut s
      = byteEvent 0xFF s := execIdleOut_of_some due
    _ = .next (handleAwaitDataToken 0xFF { s with inFlight := false }) := by
        rw [byteEvent_idle _ hs hf hm]; simp only [phaseDispatch, hp]
    _ = .next (transmit idleTx { s with inFlight := false, waitCount := s.waitCount + 1 }) := by
        rw [handleAwaitDataToken, if_neg (by decide), if_pos rfl, if_neg (by exact tolerated)]
    _ = _ :=
        congrArg _ (transmit_completed (s := { s with waitCount := s.waitCount + 1 }) 0xFF hf)

/-- The acknowledgement of CMD24 brings the data token (R253). -/
theorem execDataTokenOut_due (hp : s.phase = .writing)
    (h : s.mode = .awaitingResponse ∨ s.mode = .idle ∧ s.step = 0) :
    exec .dataTokenOut s = .next
      { s with mode := .idle, step := 1, outs := s.outs ++ [.transmit 0xFE] } := by
  have notSending : s.mode ≠ .sendingCommand := by rcases h with e | ⟨e, -⟩ <;> rw [e] <;> decide
  have due : writeAckDue s = true := by rcases h with e | ⟨e, k⟩ <;> simp_all [writeAckDue]
  have first : examining s = { s with inFlight := false, mode := .idle, step := 0 } := by
    rcases h with e | ⟨e, k⟩
    · simp only [examining, e]
    · rw [examining_of_idle e, ← e, ← k]
  calc exec .dataTokenOut s
      = phaseDispatch 0x00 (examining s) := by
        rw [exec, execDataTokenOut, handOver_examined hs hf notSending (by decide) due]
    _ = .next (handleWriting 0x00 (examining s)) := by
        simp only [phaseDispatch, examining_phase, hp]
    _ = .next (sendDataToken { s with inFlight := false, mode := .idle, step := 0 }) := by
        rw [first, handleWriting, if_pos rfl, if_neg (by decide)]
    _ = _ := congrArg _ (transmit_completed (s := { s with mode := .idle, step := 1 }) 0xFE hf)

theorem execDataTokenOut_notDue (hm : s.mode = .idle) (h : ¬ (s.phase = .writing ∧ s.step = 0)) :
    exec .dataTokenOut s = .refused .unitNotDue := by
  have notDue : writeAckDue s = false := by simpa [writeAckDue, hm] using h
  rw [exec, execDataTokenOut, handOver_notDue _ hs hf (not_sending_of_idle hm) notDue]

end Positions

/-! ### In a run the idle byte goes out wherever an event can hand it over -/

/-- The step hands the idle byte over and raises no fault. -/
def HandsIdleOver (s t : State) : Prop :=
  t.outs = s.outs ++ [.transmit 0xFF] ∧ t.raised = s.raised

theorem raiseFault_not_handsIdleOver (c : FaultClass) (s : State) :
    ¬ HandsIdleOver s (raiseFault c s) := by
  rintro ⟨-, h⟩
  simp [raiseFault_eq] at h

theorem not_handsIdleOver_of_outs {s t : State} {o : StepOutcome} (h : t.outs = s.outs ++ [o])
    (ho : o ≠ .transmit 0xFF) : ¬ HandsIdleOver s t := by
  rintro ⟨outs, -⟩
  rw [h, List.append_cancel_left_eq] at outs
  exact ho (List.singleton_inj.mp outs)

/-- Byte 0 of a frame has its high bit clear (R100), so it is not the idle byte. -/
theorem issue_not_handsIdleOver {s s' : State} (op : BitVec 6) (arg : Word) (p : Phase)
    (h : s'.outs = s.outs) : ¬ HandsIdleOver s (issue op arg p s') := by
  have byte0 : ∀ op : BitVec 6, frameByte0 op ≠ 0xFF := by decide
  refine not_handsIdleOver_of_outs (o := .transmit (frameByte0 op)) (by rw [issue_outs, h]) ?_
  exact fun e => byte0 op (StepOutcome.transmit.inj e)

theorem writeDecision_not_handsIdleOver (s : State) : ¬ HandsIdleOver s (writeDecision s) := by
  unfold writeDecision
  split
  · exact issue_not_handsIdleOver 24 _ _ rfl
  · exact issue_not_handsIdleOver 24 _ _ rfl

/-- The byte of IDLE_OUT makes the phase's handler hand the idle byte over. -/
theorem idleByteOfPhase_handsIdleOver {s : State} {rx : Byte} (h : idleByteOfPhase s = some rx) :
    ∃ t, phaseDispatch rx s = .next t ∧ HandsIdleOver s t := by
  cases hp : s.phase with
  | awaitReset | awaitReady | awaitBlockLenAck | ready | deselectIdle | fault =>
    simp [idleByteOfPhase, hp] at h
  | powerOnClock =>
    simp only [idleByteOfPhase, hp] at h
    split at h
    next below =>
      refine ⟨handlePowerOnClock s, by simp only [phaseDispatch, hp], ?_⟩
      rw [handlePowerOnClock, if_pos below]
      exact ⟨rfl, rfl⟩
    · cases h
  | awaitInterfaceCheck =>
    simp only [idleByteOfPhase, hp] at h
    split at h
    next below =>
      have notLast : ¬ s.step + 1 = 5 := by bv_omega
      refine ⟨transmit idleTx { s with step := s.step + 1 }, ?_, rfl, rfl⟩
      simp only [phaseDispatch, hp, handleAwaitInterfaceCheck, h]
      rw [if_neg (not_not.mpr rfl), if_neg notLast]
    · cases h
  | awaitReadAck =>
    simp only [idleByteOfPhase, hp] at h
    cases h
    exact ⟨handleAwaitReadAck 0x00 s, by simp only [phaseDispatch, hp], rfl, rfl⟩
  | awaitDataToken =>
    simp only [idleByteOfPhase, hp] at h
    refine ⟨handleAwaitDataToken rx s, by simp only [phaseDispatch, hp], ?_⟩
    split at h
    next below =>
      cases h
      have tolerated : ¬ s.waitCount + 1 > dataTokenWaitMax := by
        unfold dataTokenWaitMax at *
        bv_omega
      rw [handleAwaitDataToken, if_neg (by decide), if_pos rfl, if_neg tolerated]
      exact ⟨rfl, rfl⟩
    · cases h
      exact ⟨rfl, rfl⟩
  | readMetadataBlock =>
    simp only [idleByteOfPhase, hp] at h
    split at h
    · cases h
    next notLast =>
      obtain ⟨c, a, m, e⟩ := captureByte_eq rx s
      refine ⟨handleReadMetadataBlock rx s, by simp only [phaseDispatch, hp], ?_⟩
      rw [handleReadMetadataBlock, e, countPacketByte, if_neg (by exact notLast)]
      exact ⟨rfl, rfl⟩
  | writing =>
    simp only [idleByteOfPhase, hp] at h
    split at h
    next past =>
      have notFirst : ¬ s.step = 0 := by bv_omega
      have pastPayload : ¬ s.step ≤ 128 := by bv_omega
      refine ⟨handleWriting rx s, by simp only [phaseDispatch, hp], ?_⟩
      rw [handleWriting, if_neg notFirst, handleWritingPacket, if_neg pastPayload,
        if_neg (BitVec.not_le.mpr past)]
      exact ⟨rfl, rfl⟩
    · cases h
  | awaitWriteBusy =>
    simp only [idleByteOfPhase, hp] at h
    refine ⟨handleAwaitWriteBusy rx s, by simp only [phaseDispatch, hp], ?_⟩
    split at h
    next first =>
      cases h
      rw [handleAwaitWriteBusy, if_pos first]
      exact ⟨rfl, rfl⟩
    next poll =>
      cases h
      rw [handleAwaitWriteBusy, if_neg poll]
      exact ⟨rfl, rfl⟩
  | awaitStatus =>
    simp only [idleByteOfPhase, hp] at h
    split at h
    next first =>
      cases h
      refine ⟨handleAwaitStatus 0x00 s, by simp only [phaseDispatch, hp], ?_⟩
      rw [handleAwaitStatus, if_neg (by decide), if_pos first]
      exact ⟨rfl, rfl⟩
    · cases h

/-- Every position at which a handler hands the idle byte over is one of IDLE_OUT's, but for payload and
filler bytes that happen to be `0xFF`. -/
theorem PhaseStep.idleByteOfPhase_eq_some {s t : State} (h : PhaseStep s t)
    (packet : s.phase = .writing → s.step = 0 ∨ s.step = 131) (ht : HandsIdleOver s t) :
    ∃ rx, idleByteOfPhase s = some rx := by
  cases h with
  | fault c => exact absurd ht (raiseFault_not_handsIdleOver c s)
  | cmd0 | cmd8 | cmd1 | cmd16 | cmd17 => exact absurd ht (issue_not_handsIdleOver _ _ _ rfl)
  | stored =>
    exact absurd ht (issue_not_handsIdleOver 13 _ _ (by rw [commitWrite_eq]))
  | metadataDone => exact absurd ht (writeDecision_not_handsIdleOver _)
  | writeAck => exact absurd ht (not_handsIdleOver_of_outs (o := .transmit 0xFE) rfl (by decide))
  | dataDone => exact absurd ht (not_handsIdleOver_of_outs (o := .pause) rfl (by decide))
  | recovered rx =>
    obtain ⟨c, a, m, e⟩ := captureByte_eq rx s
    rw [e] at ht
    exact absurd ht (not_handsIdleOver_of_outs (o := .pause) rfl (by decide))
  | metadataPayload phase _ first last | dataPayload phase _ first last =>
    rcases packet phase with zero | done
    · exact absurd zero first
    · rw [done] at last; exact absurd last (by decide)
  | filler phase first last =>
    rcases packet phase with zero | done
    · rw [zero] at first; exact absurd first (by decide)
    · rw [done] at last; exact absurd last (by decide)
  | dummyByte phase step => exact ⟨0xFF, by simp only [idleByteOfPhase, phase]; exact if_pos step⟩
  | echoByte phase step =>
    have inEcho : s.step.toNat < echoBytes.length := by
      have : s.step.toNat < 4 := step
      exact Nat.lt_succ_of_lt this
    exact ⟨echoBytes[s.step.toNat], by
      simp only [idleByteOfPhase, phase, if_pos step, List.getElem?_eq_getElem inEcho]⟩
  | readAck phase => exact ⟨0x00, by simp only [idleByteOfPhase, phase]⟩
  | token phase | tokenWait phase =>
    simp only [idleByteOfPhase, phase]
    split
    · exact ⟨_, rfl⟩
    · exact ⟨_, rfl⟩
  | metadataByte rx phase step =>
    exact ⟨0xFF, by simp only [idleByteOfPhase, phase]; exact if_neg step⟩
  | packetEnd phase step => exact ⟨0xFF, by simp only [idleByteOfPhase, phase, if_pos step]⟩
  | accepted phase step => exact ⟨0x05, by simp only [idleByteOfPhase, phase, if_pos step]⟩
  | busy phase step => exact ⟨0xFF, by simp only [idleByteOfPhase, phase, if_neg step]⟩
  | firstStatus phase step => exact ⟨0x00, by simp only [idleByteOfPhase, phase, if_pos step]⟩

/-- The byte of IDLE_OUT hands the idle byte over, in every mode. -/
theorem idleByte_handsIdleOver {s : State} {rx : Byte} (hs : s.started = true)
    (hf : s.inFlight = true) (h : idleByte s = some rx) :
    ∃ t, byteEvent rx s = .next t ∧ HandsIdleOver s t := by
  cases hm : s.mode with
  | idle =>
    rw [byteEvent_idle _ hs hf hm]
    exact idleByteOfPhase_handsIdleOver ((idleByte_of_idle hm).symm.trans h)
  | awaitingResponse =>
    cases (idleByte_of_awaitingResponse hm).symm.trans h
    exact ⟨_, byteEvent_skip hs hf hm, rfl, rfl⟩
  | sendingCommand =>
    rw [idleByte_of_sending hm] at h
    split at h
    · cases h
    next whole =>
      refine ⟨_, byteEvent_sending _ hs hf hm, ?_⟩
      rw [frameStep_completed hf whole]
      exact ⟨rfl, rfl⟩

/-- An event that hands the idle byte over outside a frame's and a packet's bytes finds a position of
IDLE_OUT. -/
theorem idleByte_eq_some_of_byteEvent {s u : State} {rx : Byte}
    (packet : s.phase = .writing → s.mode = .idle → s.step = 0 ∨ s.step = 131)
    (h : byteEvent rx s = .next u) (hu : HandsIdleOver s u)
    (frame : ¬ (s.mode = .sendingCommand ∧ s.step < 6)) : ∃ x, idleByte s = some x := by
  cases hm : s.mode with
  | idle =>
    obtain ⟨hs, hf, -⟩ := byteEvent_next h
    rw [byteEvent_idle _ hs hf hm] at h
    rw [idleByte_of_idle hm]
    exact (phaseDispatch_phaseStep h).idleByteOfPhase_eq_some (fun hp => packet hp hm) hu
  | awaitingResponse => exact ⟨_, idleByte_of_awaitingResponse hm⟩
  | sendingCommand => exact ⟨_, (idleByte_of_sending hm).trans (if_neg fun lt => frame ⟨hm, lt⟩)⟩

/-- IDLE_OUT runs exactly at the positions of its byte. -/
theorem execIdleOut_handsIdleOver_iff {s : State} (hs : s.started = true) (hf : s.inFlight = true) :
    (∃ t, exec .idleOut s = .next t ∧ HandsIdleOver s t) ↔ ∃ rx, idleByte s = some rx := by
  constructor
  · rintro ⟨t, h, -⟩
    obtain ⟨rx, hrx, -⟩ := execIdleOut_next h
    exact ⟨rx, hrx⟩
  · rintro ⟨rx, hrx⟩
    rw [execIdleOut_of_some hrx]
    exact idleByte_handsIdleOver hs hf hrx

/-- Settles O11: a rule per position, and `idleByte` between the events and the row. -/
theorem idleAndTokenBytesGoOut : Obligations.IdleAndTokenBytesGoOut := by
  intro s hs hf
  refine ⟨?skipped, execIdleOut_frameEnd hs hf, execIdleOut_inFrame hs hf,
    execIdleOut_dummyByte hs hf, execIdleOut_dummyBytesDone hs hf, execIdleOut_tokenWait hs hf,
    ?everywhere, execDataTokenOut_due hs hf, execDataTokenOut_notDue hs hf⟩
  case skipped =>
    rintro (hm | ⟨hp, hm, hk⟩)
    · exact execIdleOut_awaitingResponse hs hf hm
    · exact execIdleOut_busyPoll hs hf hp hm hk
  case everywhere =>
    intro _ packet
    refine Iff.trans ⟨?_, ?_⟩ (execIdleOut_handsIdleOver_iff hs hf).symm
    · rintro ⟨rx, u, h, outs, raised, frame⟩
      exact idleByte_eq_some_of_byteEvent packet h ⟨outs, raised⟩ frame
    · rintro ⟨rx, hrx⟩
      obtain ⟨t, h, outs, raised⟩ := idleByte_handsIdleOver hs hf hrx
      refine ⟨rx, t, h, outs, raised, fun ⟨hm, hk⟩ => ?_⟩
      rw [idleByte_of_sending hm, if_pos hk] at hrx
      cases hrx

/-! ### Received bytes without effect (R118) -/

/-- From packet byte 12 on the received byte is not captured (R230). -/
theorem captureByte_of_padding {s : State} (rx : Byte) (h : 12 ≤ s.step) : captureByte rx s = s := by
  have past3 : ¬ s.step ≤ 3 := by bv_omega
  have past7 : ¬ s.step ≤ 7 := by bv_omega
  have past11 : ¬ s.step ≤ 11 := by bv_omega
  rw [captureByte, if_neg past3, if_neg past7, if_neg past11]

theorem handleWriting_of_packet {s : State} (rx : Byte) (h : s.step ≠ 0) :
    handleWriting rx s = handleWritingPacket s := if_neg h

/-- Settles O41: mode by mode and phase by phase the event does not read the byte. -/
theorem ignoredBytesHaveNoEffect : Obligations.IgnoredBytesHaveNoEffect := by
  intro s x y h
  have ignored : dispatchEvent x { s with inFlight := false } =
      dispatchEvent y { s with inFlight := false } := by
    rcases h with hm | ⟨hm, hp⟩ | ⟨hm, hp, hk⟩ | ⟨hm, hp, hk⟩
    · simp only [dispatchEvent, hm]
    · simp only [dispatchEvent, hm, phaseDispatch, hp]
    · simp only [dispatchEvent, hm, phaseDispatch, hp]
      rw [handleWriting_of_packet x (by exact hk), handleWriting_of_packet y (by exact hk)]
    · simp only [dispatchEvent, hm, phaseDispatch, hp, handleReadMetadataBlock]
      rw [captureByte_of_padding x (by exact hk), captureByte_of_padding y (by exact hk)]
  simp only [exec, execOnByteTransferred, byteEvent, ignored]

end Sys2Proof.Machine

/-! ## The host interface: reset, completion event, `request_write` (40_host_interface.md) -/

namespace Sys2Proof.Machine

/-! ### Every byte of an event has one outcome (R143, R154) -/

/-- The step reports one byte handed over and leaves it in flight, or reports the pause and leaves
nothing in flight (R15). -/
def OneOutcome (s t : State) : Prop :=
  (∃ b, t.outs = s.outs ++ [.transmit b] ∧ t.inFlight = true) ∨
  (t.outs = s.outs ++ [.pause] ∧ t.inFlight = false)

theorem transmit_oneOutcome {s s' : State} (b : Byte) (h : s'.outs = s.outs) :
    OneOutcome s (transmit b s') :=
  .inl ⟨b, by rw [transmit_outs, h], rfl⟩

theorem pause_oneOutcome {s s' : State} (h : s'.outs = s.outs) : OneOutcome s (pause s') :=
  .inr ⟨by rw [pause_outs, h], rfl⟩

theorem issue_oneOutcome {s s' : State} (op : BitVec 6) (arg : Word) (p : Phase)
    (h : s'.outs = s.outs) : OneOutcome s (issue op arg p s') :=
  transmit_oneOutcome _ h

theorem writeDecision_oneOutcome {s s' : State} (h : s'.outs = s.outs) :
    OneOutcome s (writeDecision s') := by
  unfold writeDecision
  split
  · exact issue_oneOutcome 24 _ _ h
  · exact issue_oneOutcome 24 _ _ h

theorem frameStep_oneOutcome {s s' : State} (h : s'.outs = s.outs) :
    OneOutcome s (frameStep s') := by
  unfold frameStep
  split
  · exact transmit_oneOutcome _ h
  · exact transmit_oneOutcome _ h

theorem PhaseStep.oneOutcome {s t : State} (h : PhaseStep s t) : OneOutcome s t := by
  cases h with
  | fault c => rw [raiseFault_eq]; exact .inl ⟨idleTx, rfl, rfl⟩
  | cmd0 | cmd8 | cmd1 | cmd16 | cmd17 => exact issue_oneOutcome _ _ _ rfl
  | stored => exact issue_oneOutcome 13 _ _ (by rw [commitWrite_eq])
  | metadataByte rx =>
    obtain ⟨c, a, m, e⟩ := captureByte_eq rx s
    exact transmit_oneOutcome _ (by rw [e])
  | recovered rx =>
    obtain ⟨c, a, m, e⟩ := captureByte_eq rx s
    exact pause_oneOutcome (by rw [e])
  | dataPayload =>
    obtain ⟨p, n, e⟩ := takeAnswer_eq s
    exact transmit_oneOutcome _ (by rw [e])
  | metadataDone => exact writeDecision_oneOutcome rfl
  | dataDone => exact pause_oneOutcome rfl
  | dummyByte | echoByte | readAck | token | tokenWait | writeAck | metadataPayload | filler
  | packetEnd | accepted | busy | firstStatus => exact transmit_oneOutcome _ rfl

theorem examining_outs (s : State) : (examining s).outs = s.outs := by
  obtain ⟨m, k, e⟩ := examining_eq s
  rw [e]

theorem byteEvent_oneOutcome {rx : Byte} {s t : State} (h : byteEvent rx s = .next t) :
    OneOutcome s t := by
  rcases byteEvent_outcome h with ⟨-, rfl⟩ | ⟨-, rfl⟩ | ⟨-, hstep⟩
  · exact frameStep_oneOutcome rfl
  · exact transmit_oneOutcome _ rfl
  · have outcome := hstep.oneOutcome
    rwa [OneOutcome, examining_outs] at outcome

/-- Within the echo (R35) every byte has a result: the echo goes on, or a fault is taken. -/
theorem handleAwaitInterfaceCheck_answers {s : State} (rx : Byte) (h : s.step ≤ 4) :
    ∃ t, handleAwaitInterfaceCheck rx s = .next t := by
  have inEcho : s.step.toNat < echoBytes.length := Nat.lt_succ_of_le h
  simp only [handleAwaitInterfaceCheck, List.getElem?_eq_getElem inEcho]
  split
  · exact ⟨_, rfl⟩
  split
  · exact ⟨_, rfl⟩
  · exact ⟨_, rfl⟩

theorem Examined.phaseDispatch_answers {s : State} (h : Examined s) (rx : Byte) :
    ∃ t, phaseDispatch rx s = .next t := by
  have range := h.step
  cases hp : s.phase with
  | ready => exact absurd hp h.notReady
  | deselectIdle | fault => simp [hp, Phase.awaitsCommand, idleStepRange] at range
  | awaitInterfaceCheck =>
    have inEcho : s.step ≤ 4 := by
      simp only [hp, idleStepRange] at range
      bv_omega
    simpa only [phaseDispatch, hp] using handleAwaitInterfaceCheck_answers rx inEcho
  | powerOnClock | awaitReset | awaitReady | awaitBlockLenAck | awaitReadAck | awaitDataToken
  | readMetadataBlock | writing | awaitWriteBusy | awaitStatus =>
    exact ⟨_, by simp only [phaseDispatch, hp]; rfl⟩

theorem RegistersOk.byteEvent_answers {s : State} (h : RegistersOk s) (hf : s.inFlight = true)
    (rx : Byte) : ∃ t, byteEvent rx s = .next t := by
  cases hm : s.mode with
  | sendingCommand => exact ⟨_, byteEvent_sending rx h.started hf hm⟩
  | idle =>
    rw [byteEvent_examined h.started hf (.inl hm)]
    exact (h.examined hf (by rw [hm]; decide)).phaseDispatch_answers rx
  | awaitingResponse =>
    by_cases skipped : rx = 0xFF
    · exact ⟨_, skipped ▸ byteEvent_skip h.started hf hm⟩
    · rw [byteEvent_examined h.started hf (.inr ⟨hm, skipped⟩)]
      exact (h.examined hf (by rw [hm]; decide)).phaseDispatch_answers rx

/-- Settles O40: the event answers by the ranges of the invariant, reports one outcome, and the
invariant it keeps ties the pause to Ready. -/
theorem everyByteHasOneOutcome : Obligations.EveryByteHasOneOutcome := by
  intro s rx hs hf
  obtain ⟨t, h⟩ := hs.byteEvent_answers hf rx
  have paused := (byteEvent_registersOk hs h).paused
  refine ⟨t, h, ?_⟩
  rcases byteEvent_oneOutcome h with ⟨b, outs, inFlight⟩ | ⟨outs, inFlight⟩
  · refine .inl ⟨b, outs, fun ready => ?_, inFlight⟩
    cases inFlight.symm.trans (paused.mpr ready)
  · exact .inr ⟨outs, paused.mp inFlight, inFlight⟩

/-! ### The reset, and its refusal (R142, R157, R336) -/

theorem resetBlock_resetRegisters (s : State) : ResetRegisters (resetBlock s) := by
  rw [resetBlock_eq]
  exact ⟨rfl, rfl, rfl, rfl, rfl, rfl, rfl, rfl, rfl, rfl, rfl, rfl⟩

theorem resetBlock_writeAbandoned (s : State) : WriteAbandoned s (resetBlock s) := by
  rw [resetBlock_eq]
  exact writeAbandoned_congr (abandonWrite_device s) (abandonWrite_device s).pending.symm rfl

theorem execInitialize_resets {s : State} (h : s.started = false ∨ s.inFlight = false) :
    exec .initializeOp s = .next (resetBlock s) :=
  if_neg fun ⟨hs, hf⟩ =>
    h.elim (fun e => by cases hs.symm.trans e) (fun e => by cases hf.symm.trans e)

/-- Settles O2: the reset field by field (`resetBlock_eq`), and the refusal. -/
theorem initializeResetsOrIsRefused : Obligations.InitializeResetsOrIsRefused := by
  refine fun s => ⟨fun h => ⟨resetBlock s, execInitialize_resets h, resetBlock_resetRegisters s,
    ?started, ?outs, ?raised, resetBlock_writeAbandoned s, ?script, ?payload, ?payloadCount⟩,
    fun hs hf => if_pos ⟨hs, hf⟩⟩
  case outs => exact congrArg State.outs (resetBlock_eq s)
  all_goals rw [resetBlock_eq]

/-! ### While nothing is in flight (R157, R251) -/

section Paused

variable {s : State} (hs : s.started = true) (hf : s.inFlight = false)

include hs hf

theorem byteEvent_noExchange (rx : Byte) : byteEvent rx s = .refused .noExchangeInFlight := by
  simp [byteEvent, hs, hf]

theorem handOver_noExchange (due : Bool) (rx : Byte) :
    handOver due rx s = .refused .noExchangeInFlight := by
  simp [handOver, hs, hf]

theorem execCmd1_noExchange : exec .cmd1 s = .refused .noExchangeInFlight := by
  simp only [exec, execCmd1]
  split
  · exact handOver_noExchange hs hf _ _
  · exact handOver_noExchange hs hf _ _

theorem execDataPacketOut_noExchange (payload : List Byte) :
    exec (.dataPacketOut payload) s = .refused .noExchangeInFlight := by
  simp only [exec, execDataPacketOut]
  rw [if_neg (by simp [hf])]
  exact handOver_noExchange hs hf _ _

theorem execIdleOut_noExchange : exec .idleOut s = .refused .noExchangeInFlight := by
  simp only [exec, execIdleOut]
  split
  · exact handOver_noExchange hs hf _ _
  · exact byteEvent_noExchange hs hf _

theorem execCmd24_noExchange (addr : Word) (hp : s.phase ≠ .ready) :
    exec (.cmd24 addr) s = .refused .noExchangeInFlight := by
  have notReady : ¬ s.isReady = true := fun r => hp ((isReady_iff s).mp r).1
  simp only [exec, execCmd24]
  rw [if_neg (by simp [hs]), if_neg notReady]
  exact handOver_noExchange hs hf _ _

end Paused

/-- Settles O4: each row is an event or a unit handed over, and both are refused; the last clause is
`RegistersOk.paused`. -/
theorem eventWithoutExchangeIsRefused : Obligations.EventWithoutExchangeIsRefused := by
  intro s rx a p hs hf
  have out (due : Bool) (rx : Byte) : handOver due rx s = .refused .noExchangeInFlight :=
    handOver_noExchange hs hf due rx
  exact ⟨byteEvent_noExchange hs hf rx, out _ _, out _ _, execCmd1_noExchange hs hf, out _ _,
    out _ _, out _ _, out _ _, execDataPacketOut_noExchange hs hf p, execIdleOut_noExchange hs hf,
    execCmd24_noExchange hs hf a, fun ok => ok.paused.mp hf⟩

/-! ### `request_write` (R149, R150) -/

theorem execRequestWrite_rejected {s : State} (available : Bool) (hs : s.started = true)
    (h : s.phase ≠ .ready ∨ s.inFlight = true) :
    exec (.requestWrite available) s = .next (reject s) := by
  have outside : ¬ (s.phase = .ready ∧ s.inFlight = false) := fun ⟨hp, hf⟩ =>
    h.elim (· hp) fun e => by cases e.symm.trans hf
  simp only [exec, execRequestWrite, hs, outside]
  rfl

/-- In Ready it keeps the pause, or takes the WriteDecision. -/
theorem execRequestWrite_ready {s : State} (available : Bool) (hs : s.started = true)
    (hp : s.phase = .ready) (hf : s.inFlight = false) :
    exec (.requestWrite available) s =
      .next (if available then writeDecision s else pause s) := by
  cases available with
  | false => simp [exec, execRequestWrite, hs, hp, hf]
  | true => simp [exec, execRequestWrite, hs, hp, hf]

/-- A pause kept: the flag is as it was. -/
theorem pause_of_paused {s : State} (hf : s.inFlight = false) :
    pause s = { s with outs := s.outs ++ [.pause] } := by
  rw [pause, ← hf]

/-- Settles O5: the rejection adds its report and writes no register. -/
theorem requestWriteOutsideReadyIsRejected : Obligations.RequestWriteOutsideReadyIsRejected :=
  fun _ available hs h => execRequestWrite_rejected available hs h

/-- Settles O6: the WriteDecision by its two branches. -/
theorem requestWriteInReady : Obligations.RequestWriteInReady := by
  intro s hs hp hf
  have row (available : Bool) := execRequestWrite_ready available hs hp hf
  refine ⟨?kept, fun h => ?data, fun hc hd => ?super⟩
  case kept => exact (row false).trans (congrArg _ (pause_of_paused hf))
  case data => exact (row true).trans (congrArg _ (writeDecision_data h).1)
  case super => exact (row true).trans (congrArg _ (writeDecision_super hc hd).1)

/-! ### The wait for a response, the payload port (R146, R147) -/

/-- Settles O12: the row and the event are the same skip. -/
theorem responseWaitSkipsIdleBytes : Obligations.ResponseWaitSkipsIdleBytes :=
  fun _ hs hf hm => ⟨byteEvent_skip hs hf hm, byteEvent_skip hs hf hm⟩

/-- Settles O38: for `0x00`, the byte the sentinel stands for, "no more data" sends `0x00` too. -/
theorem sentinelSourceSendsTheSameBytes : Obligations.SentinelSourceSendsTheSameBytes := by
  intro b
  by_cases zero : b = 0x00
  · rw [zero]; rfl
  · have valid : (b != 0x00) = true := bne_iff_ne.mpr zero
    exact if_pos valid

end Sys2Proof.Machine

/-! ## The command framer: a frame goes out byte by byte, alone (R172, R173, R181) -/

namespace Sys2Proof.Machine

/-! ### The bytes of a frame -/

theorem frameStep_inFrame {s : State} (hf : s.inFlight = true) (hk : s.step < 6) :
    frameStep { s with inFlight := false } =
      { s with
        frame := s.frame.clear s.step.toNat, step := s.step + 1
        outs := s.outs ++ [.transmit (s.frame.get s.step.toNat)] } :=
  (if_pos hk).trans
    (transmit_completed
      (s := { s with frame := s.frame.clear s.step.toNat, step := s.step + 1 }) _ hf)

section Sending

variable {s : State} (rx : Byte) (hs : s.started = true) (hf : s.inFlight = true)
  (hm : s.mode = .sendingCommand)

include hs hf hm

theorem byteEvent_inFrame (hk : s.step < 6) :
    byteEvent rx s = .next
      { s with
        frame := s.frame.clear s.step.toNat, step := s.step + 1
        outs := s.outs ++ [.transmit (s.frame.get s.step.toNat)] } := by
  rw [byteEvent_sending rx hs hf hm, frameStep_inFrame hf hk]

theorem byteEvent_frameEnd (hk : s.step = 6) :
    byteEvent rx s = .next
      { s with mode := .awaitingResponse, step := 0, outs := s.outs ++ [.transmit 0xFF] } := by
  have whole : ¬ s.step < 6 := by rw [hk]; decide
  rw [byteEvent_sending rx hs hf hm, frameStep_completed hf whole]

end Sending

/-- Settles O7: the event is the `frameStep` of R172, by its two branches. -/
theorem frameIsSentByteByByte : Obligations.FrameIsSentByteByByte :=
  fun _ rx hs hf hm => ⟨byteEvent_inFrame rx hs hf hm, byteEvent_frameEnd rx hs hf hm⟩

/-- A frame on its way out: these bytes are left of it, byte `k` is the next, and the bytes `sent`
have been handed over since `s`. -/
def State.frameUnderWay (s : State) (left : Frame) (p : Phase) (k : Byte) (sent : List Byte) :
    State :=
  { s with
    phase := p, mode := .sendingCommand, step := k, frame := left, inFlight := true
    outs := s.outs ++ sent.map .transmit }

theorem frameIssued_eq_frameUnderWay (s : State) (f : Frame) (p : Phase) :
    s.frameIssued f p = s.frameUnderWay { f with b0 := 0 } p 1 [f.b0] := rfl

section UnderWay

variable {s : State} {left : Frame} {p : Phase} {k : Byte} {sent : List Byte}

/-- One event moves one byte from what is left to what is sent. -/
theorem byteEvent_frameUnderWay (rx : Byte) (hs : s.started = true) (hk : k < 6) :
    byteEvent rx (s.frameUnderWay left p k sent) =
      .next (s.frameUnderWay (left.clear k.toNat) p (k + 1) (sent ++ [left.get k.toNat])) := by
  have event := byteEvent_inFrame (s := s.frameUnderWay left p k sent) rx hs rfl rfl hk
  simpa [State.frameUnderWay] using event

theorem byteEvents_frameUnderWay (rx : Byte) (rest : List Byte) (hs : s.started = true)
    (hk : k < 6) :
    byteEvents (rx :: rest) (s.frameUnderWay left p k sent) =
      byteEvents rest
        (s.frameUnderWay (left.clear k.toNat) p (k + 1) (sent ++ [left.get k.toNat])) := by
  rw [byteEvents, byteEvent_frameUnderWay rx hs hk, andThen_of_next]

theorem byteEvent_frameUnderWay_end (rx : Byte) (hs : s.started = true) :
    byteEvent rx (s.frameUnderWay left p 6 sent) = .next
      { s with
        phase := p, mode := .awaitingResponse, step := 0, frame := left, inFlight := true
        outs := s.outs ++ (sent ++ [0xFF]).map .transmit } := by
  have event := byteEvent_frameEnd (s := s.frameUnderWay left p 6 sent) rx hs rfl rfl rfl
  simpa [State.frameUnderWay] using event

end UnderWay

/-- Settles O8: five events for bytes 1 to 5, and the one that completes the trailer. -/
theorem issuedFrameReachesTheBusWhole : Obligations.IssuedFrameReachesTheBusWhole := by
  intro s f p ignored hs six
  match ignored, six with
  | [x1, x2, x3, x4, x5, x6], _ =>
    have sent : byteEvents [x1, x2, x3, x4, x5, x6] (s.frameIssued f p) =
        byteEvents [x6] (s.frameUnderWay ⟨0, 0, 0, 0, 0, 0⟩ p 6
          [f.b0, f.b1, f.b2, f.b3, f.b4, f.b5]) := by
      rw [frameIssued_eq_frameUnderWay]
      iterate 5 rw [byteEvents_frameUnderWay _ _ hs (by decide)]
      rfl
    rw [sent, byteEvents, byteEvent_frameUnderWay_end x6 hs]
    rfl

/-! ### The rows that are handed over by an event, in an exchange (R181) -/

theorem exec_cmd1_eq (s : State) :
    exec .cmd1 s =
      handOver (if s.phase = .awaitInterfaceCheck then echoLastDue s else s.phase == .awaitReady)
        (if s.phase = .awaitInterfaceCheck then 0xAA else 0x01) s := by
  simp only [exec, execCmd1]
  split <;> rfl

/-- In an exchange CMD24 is no `request_write`, and can only be the one after a metadata block. -/
theorem exec_cmd24_inFlight {s : State} (a : Word) (hs : s.started = true)
    (hf : s.inFlight = true) :
    exec (.cmd24 a) s = handOver (superStatusDue s && a == s.cursor) 0x00 s := by
  have notReady : ¬ s.isReady = true := by simp [State.isReady, hf]
  simp only [exec, execCmd24]
  rw [if_neg (by simp [hs]), if_neg notReady]

theorem exec_dataPacketOut_not_idle {s : State} (payload : List Byte) (hm : s.mode ≠ .idle) :
    exec (.dataPacketOut payload) s = handOver false idleTx s := by
  have notDue : packetDue s = false := by simp [packetDue, hm]
  simp only [exec, execDataPacketOut]
  rw [if_neg (by simp [notDue])]

/-- Settles O10: every row is an event handed over. A frame under way refuses it, and a wait for a
response too where the unit is due in mode Idle only or in another phase. -/
theorem oneFrameOutstanding : Obligations.OneFrameOutstanding := by
  intro s a p hs hf
  refine ⟨fun hm => ?sending, fun hm => ?awaiting⟩
  case sending =>
    have out (due : Bool) (rx : Byte) : handOver due rx s = .refused .frameOutstanding :=
      handOver_sendingCommand due rx hs hf hm
    have notIdle : s.mode ≠ .idle := by rw [hm]; decide
    exact ⟨out _ _, out _ _, (exec_cmd1_eq s).trans (out _ _), out _ _, out _ _,
      (exec_cmd24_inFlight a hs hf).trans (out _ _), out _ _, out _ _,
      (exec_dataPacketOut_not_idle p notIdle).trans (out _ _), execIdleOut_inFrame hs hf hm⟩
  case awaiting =>
    have notSending : s.mode ≠ .sendingCommand := by rw [hm]; decide
    have notIdle : s.mode ≠ .idle := by rw [hm]; decide
    have out {due : Bool} {rx : Byte} (hd : due = false) :
        handOver due rx s = .refused .unitNotDue := handOver_notDue rx hs hf notSending hd
    have inPhase {q : Phase} (hp : s.phase ≠ q) : (s.phase == q) = false := beq_false_of_ne hp
    refine ⟨out ?cmd0, (exec_cmd24_inFlight a hs hf).trans (out ?cmd24), out ?cmd13,
      (exec_dataPacketOut_not_idle p notIdle).trans (out rfl), fun hp => out (inPhase hp),
      fun hp => ⟨(exec_cmd1_eq s).trans (out ?cmd1), out (inPhase hp)⟩,
      fun hp => out (inPhase hp), fun hp => out ?token⟩
    case cmd0 => simp [cmd0Due, hm]
    case cmd24 => simp [superStatusDue, hm]
    case cmd13 => simp [busyPollDue, hm]
    case cmd1 =>
      split
      · simp [echoLastDue, hm]
      · exact inPhase hp
    case token => simp [writeAckDue, hp]

end Sys2Proof.Machine

/-! ## Bring-up: the phases one by one, and the whole sequence (42_bringup.md) -/

namespace Sys2Proof.Machine

/-! ### Where a phase examines a byte -/

theorem not_sending_of_examines {s : State} {rx : Byte} (h : examines s rx) :
    s.mode ≠ .sendingCommand := by
  rcases h with e | ⟨e, -⟩ <;> rw [e] <;> decide

/-- Where a byte is examined the handler reads mode Idle, with `s.step` 0 at the first byte of a
response (R146). -/
theorem examining_of_examines {s : State} {rx : Byte} (h : examines s rx) :
    examining s =
      { s with
        inFlight := false, mode := .idle, step := if s.mode = .idle then s.step else 0 } := by
  rcases h with hm | ⟨hm, -⟩
  · rw [examining_of_idle hm, if_pos hm, ← hm]
  · have busy : s.mode ≠ .idle := by rw [hm]; decide
    rw [if_neg busy]
    simp only [examining, hm]

/-- The event's byte is compared with byte `k` of the echo: in mode Idle at that count, or as the first
byte of the response (R203, R146). -/
def AwaitsEcho (s : State) (rx : Byte) (k : Nat) : Prop :=
  s.mode = .idle ∧ s.step.toNat = k ∨ s.mode = .awaitingResponse ∧ rx ≠ 0xFF ∧ k = 0

theorem AwaitsEcho.examines {s : State} {rx : Byte} {k : Nat} (h : AwaitsEcho s rx k) :
    examines s rx :=
  h.imp And.left fun ⟨hm, hx, _⟩ => ⟨hm, hx⟩

theorem AwaitsEcho.index {s : State} {rx : Byte} {k : Nat} (h : AwaitsEcho s rx k) :
    (examining s).step.toNat = k := by
  rcases h with ⟨hm, h⟩ | ⟨hm, -, rfl⟩
  · simpa [examining, hm] using h
  · simp [examining, hm]

section Examined

variable {s : State} {rx : Byte} (hs : s.started = true) (hf : s.inFlight = true)

include hs hf

/-- An examined byte that the phase's handler answers with a fault takes that fault from the state
before the event. -/
theorem byteEvent_faults {c : FaultClass} (he : examines s rx)
    (h : phaseDispatch rx (examining s) = .next (raiseFault c (examining s))) :
    ∃ t, byteEvent rx s = .next t ∧ FaultTaken c s t :=
  fault_of_examining ((byteEvent_examined hs hf he).trans h)

/-! ### PowerOnClock (R201) -/

/-- In PowerOnClock any two received bytes have the same effect. -/
theorem byteEvent_powerOnClock_ignores (x y : Byte) (hp : s.phase = .powerOnClock)
    (hm : s.mode = .idle) : byteEvent x s = byteEvent y s := by
  simp only [byteEvent_idle _ hs hf hm, phaseDispatch, hp]

/-- A dummy byte is an idle byte handed over, whatever is received. -/
theorem byteEvent_dummyByte (rx : Byte) (hp : s.phase = .powerOnClock) (hm : s.mode = .idle)
    (hk : s.step < 100) :
    byteEvent rx s = .next { s with step := s.step + 1, outs := s.outs ++ [.transmit 0xFF] } := by
  obtain ⟨y, -, h⟩ := execIdleOut_next (execIdleOut_dummyByte hs hf hp hm hk)
  rw [byteEvent_powerOnClock_ignores hs hf rx y hp hm, h]

theorem byteEvent_powerOnClock_ends (rx : Byte) (hp : s.phase = .powerOnClock)
    (hm : s.mode = .idle) (hk : 100 ≤ s.step) :
    byteEvent rx s = .next
      { s.frameIssued ⟨0x40, 0x00, 0x00, 0x00, 0x00, 0x95⟩ .awaitReset with selected := true } := by
  rw [byteEvent_powerOnClock_ignores hs hf rx idleTx hp hm]
  exact (handOver_next (execCmd0_issues hs hf hp hm hk)).2

/-! ### The answers that issue the next command (R202, R204, R205) -/

section Answers

variable (hm : s.mode ≠ .sendingCommand)

include hm

theorem byteEvent_awaitReset_idle (hp : s.phase = .awaitReset) :
    byteEvent 0x01 s = .next
      (s.frameIssued ⟨0x48, 0x00, 0x00, 0x01, 0xAA, 0x87⟩ .awaitInterfaceCheck) :=
  (handOver_next (execCmd8_issues hs hf hp hm)).2

theorem byteEvent_awaitReady_idle (hp : s.phase = .awaitReady) :
    byteEvent 0x01 s = .next
      (s.frameIssued ⟨0x41, 0x00, 0x00, 0x00, 0x00, 0x00⟩ .awaitReady) := by
  have event := (handOver_next ((exec_cmd1_eq s).symm.trans (execCmd1_polls hs hf hp hm))).2
  rwa [if_neg (by simp [hp])] at event

theorem byteEvent_awaitReady_ready (hp : s.phase = .awaitReady) :
    byteEvent 0x00 s = .next
      (s.frameIssued ⟨0x50, 0x00, 0x00, 0x00, 0x80, 0x00⟩ .awaitBlockLenAck) :=
  (handOver_next (execCmd16_issues hs hf hp hm)).2

theorem byteEvent_awaitBlockLenAck_ready (hp : s.phase = .awaitBlockLenAck) :
    byteEvent 0x00 s = .next
      (s.frameIssued ⟨0x51, 0x00, 0x00, 0x00, 0x00, 0x00⟩ .awaitReadAck) :=
  (handOver_next (execCmd17_issues hs hf hp hm)).2

/-- The acknowledgement of the read starts the token wait from a count of 0 (R206). -/
theorem byteEvent_awaitReadAck_ready (hp : s.phase = .awaitReadAck) :
    byteEvent 0x00 s = .next
      { s with
        phase := .awaitDataToken, mode := .idle, waitCount := 0
        step := if s.mode = .idle then s.step else 0
        outs := s.outs ++ [.transmit 0xFF] } := by
  have he : examines s 0x00 := examines_of_not_sending hm (by decide)
  calc byteEvent 0x00 s
      = .next (handleAwaitReadAck 0x00 (examining s)) := by
        rw [byteEvent_examined hs hf he]; simp only [phaseDispatch, examining_phase, hp]
    _ = .next (transmit idleTx { examining s with phase := .awaitDataToken, waitCount := 0 }) := by
        rw [handleAwaitReadAck, if_pos rfl]
    _ = _ := by rw [examining_of_examines he, transmit, ← hf]; rfl

end Answers

/-! ### The echo of CMD8 (R203) -/

/-- The right byte before the last moves on to the next one. -/
theorem byteEvent_echo_next {k : Nat} (h : AwaitsEcho s rx k) (hp : s.phase = .awaitInterfaceCheck)
    (hx : echoBytes[k]? = some rx) (hk : k < 4) :
    byteEvent rx s = .next
      { s with
        mode := .idle, step := BitVec.ofNat 8 (k + 1), outs := s.outs ++ [.transmit 0xFF] } := by
  have index := h.index
  have counted : (examining s).step + 1 = BitVec.ofNat 8 (k + 1) := by bv_omega
  have notLast : ¬ (examining s).step + 1 = 5 := by bv_omega
  rw [byteEvent_examined hs hf h.examines]
  simp only [phaseDispatch, examining_phase, hp, handleAwaitInterfaceCheck, index, hx]
  rw [if_neg (not_not.mpr rfl), if_neg notLast, counted, examining_of_examines h.examines, transmit,
    ← hf]
  rfl

theorem byteEvent_echo_last (hm : s.mode = .idle) (hp : s.phase = .awaitInterfaceCheck)
    (hk : s.step = 4) :
    byteEvent 0xAA s = .next (s.frameIssued ⟨0x41, 0x00, 0x00, 0x00, 0x00, 0x00⟩ .awaitReady) := by
  have event := (handOver_next ((exec_cmd1_eq s).symm.trans (execCmd1_after_echo hs hf hp hm hk))).2
  rwa [if_pos hp] at event

theorem byteEvent_echo_mismatch {k : Nat} (h : AwaitsEcho s rx k)
    (hp : s.phase = .awaitInterfaceCheck) (hx : echoBytes[k]? ≠ some rx) (hk : k < 5) :
    ∃ t, byteEvent rx s = .next t ∧ FaultTaken .bringupMismatch s t := by
  have inEcho := List.getElem?_eq_getElem (l := echoBytes) hk
  have differs : rx ≠ echoBytes[k] := fun e => hx (inEcho.trans (e ▸ rfl))
  apply byteEvent_faults hs hf h.examines
  simp only [phaseDispatch, examining_phase, hp, handleAwaitInterfaceCheck, h.index, inEcho]
  exact if_pos differs

/-! ### The wait for the data token (R207, R306) -/

section TokenWait

variable (hp : s.phase = .awaitDataToken) (hm : s.mode = .idle)

include hp hm

theorem byteEvent_awaitDataToken (rx : Byte) :
    byteEvent rx s = .next (handleAwaitDataToken rx { s with inFlight := false }) := by
  rw [byteEvent_idle rx hs hf hm]; simp only [phaseDispatch, hp]

theorem byteEvent_token :
    byteEvent 0xFE s = .next
      { s with phase := .readMetadataBlock, step := 0, outs := s.outs ++ [.transmit 0xFF] } := by
  have isToken : 0xFE = dataToken := rfl
  rw [byteEvent_awaitDataToken hs hf hp hm, handleAwaitDataToken, if_pos isToken]
  exact congrArg _
    (transmit_completed (s := { s with phase := .readMetadataBlock, step := 0 }) 0xFF hf)

theorem byteEvent_tokenWait (hk : s.waitCount < 250) :
    byteEvent 0xFF s = .next
      { s with waitCount := s.waitCount + 1, outs := s.outs ++ [.transmit 0xFF] } := by
  have tolerated : ¬ s.waitCount + 1 > dataTokenWaitMax := by unfold dataTokenWaitMax; bv_omega
  rw [byteEvent_awaitDataToken hs hf hp hm, handleAwaitDataToken, if_neg (by decide), if_pos rfl,
    if_neg (by exact tolerated)]
  exact congrArg _ (transmit_completed (s := { s with waitCount := s.waitCount + 1 }) 0xFF hf)

/-- The wait that times out: its count is one of the registers the fault clears (R300). -/
theorem byteEvent_tokenTimeout (hk : s.waitCount = 250) :
    byteEvent 0xFF s = .next (raiseFault .busTimeout s) := by
  have exceeded : s.waitCount + 1 > dataTokenWaitMax := by rw [hk]; decide
  rw [byteEvent_awaitDataToken hs hf hp hm, handleAwaitDataToken, if_neg (by decide), if_pos rfl,
    if_pos (by exact exceeded)]
  exact congrArg _ (raiseFault_congr _ rfl rfl rfl rfl rfl rfl rfl rfl)

end TokenWait

end Examined

/-- Settles O13. -/
theorem powerOnClockCountsDummyBytes : Obligations.PowerOnClockCountsDummyBytes :=
  fun _ rx hs hf hp hm =>
    ⟨byteEvent_dummyByte hs hf rx hp hm, byteEvent_powerOnClock_ends hs hf rx hp hm⟩

/-- Settles O14. -/
theorem awaitResetExpectsIdle : Obligations.AwaitResetExpectsIdle := by
  intro s rx hs hf hp he
  refine ⟨?idle, fun other => byteEvent_faults hs hf he ?mismatch⟩
  case idle =>
    rintro rfl
    have issued := byteEvent_awaitReset_idle hs hf (not_sending_of_examines he) hp
    exact ⟨issued, issued⟩
  case mismatch =>
    simp only [phaseDispatch, examining_phase, hp]
    exact congrArg _ (if_neg other)

/-- Settles O17: the two answers R204 knows, and any other byte. -/
theorem awaitReadyPollsOrGoesOn : Obligations.AwaitReadyPollsOrGoesOn := by
  intro s rx hs hf hp he
  have hm := not_sending_of_examines he
  refine ⟨?idle, ?ready, fun notIdle notReady => byteEvent_faults hs hf he ?mismatch⟩
  case idle =>
    rintro rfl
    exact ⟨byteEvent_awaitReady_idle hs hf hm hp, byteEvent_awaitReady_idle hs hf hm hp⟩
  case ready =>
    rintro rfl
    exact ⟨byteEvent_awaitReady_ready hs hf hm hp, byteEvent_awaitReady_ready hs hf hm hp⟩
  case mismatch =>
    simp only [phaseDispatch, examining_phase, hp]
    exact congrArg _ ((if_neg notIdle).trans (if_neg notReady))

/-- Settles O18. -/
theorem blockLengthAckStartsTheRead : Obligations.BlockLengthAckStartsTheRead := by
  intro s rx hs hf hp he
  refine ⟨?ready, fun other => byteEvent_faults hs hf he ?mismatch⟩
  case ready =>
    rintro rfl
    have issued := byteEvent_awaitBlockLenAck_ready hs hf (not_sending_of_examines he) hp
    exact ⟨issued, issued⟩
  case mismatch =>
    simp only [phaseDispatch, examining_phase, hp]
    exact congrArg _ (if_neg other)

/-- Settles O19. -/
theorem readAckStartsTheTokenWait : Obligations.ReadAckStartsTheTokenWait := by
  intro s rx hs hf hp he
  refine ⟨?ready, fun other => byteEvent_faults hs hf he ?mismatch⟩
  case ready =>
    rintro rfl
    exact byteEvent_awaitReadAck_ready hs hf (not_sending_of_examines he) hp
  case mismatch =>
    simp only [phaseDispatch, examining_phase, hp]
    exact congrArg _ (if_neg other)

/-- Settles O15. The last byte of the echo is awaited in mode Idle only. -/
theorem interfaceCheckComparesTheEcho : Obligations.InterfaceCheckComparesTheEcho := by
  intro s rx k hs hf hp hk h
  refine ⟨fun hx => byteEvent_echo_mismatch hs hf h hp hx hk,
    fun hx below => byteEvent_echo_next hs hf h hp hx below, fun hx last => ?last⟩
  subst last
  obtain rfl : 0xAA = rx := Option.some.inj hx
  rcases h with ⟨hm, four⟩ | ⟨-, -, first⟩
  · exact byteEvent_echo_last hs hf hm hp (BitVec.eq_of_toNat_eq four)
  · cases first

/-- Settles O20. -/
theorem dataTokenWaitIsBounded : Obligations.DataTokenWaitIsBounded := by
  intro s rx hs hf hp hm _
  refine ⟨?token, fun hk => ?wait, fun hk => ?timeout, fun notToken notIdle => ?mismatch⟩
  case token => exact ⟨byteEvent_token hs hf hp hm, byteEvent_token hs hf hp hm⟩
  case wait => exact ⟨byteEvent_tokenWait hs hf hp hm hk, byteEvent_tokenWait hs hf hp hm hk⟩
  case timeout =>
    have timeout := byteEvent_tokenTimeout hs hf hp hm hk
    exact ⟨_, timeout, timeout, raiseFault_taken _ s⟩
  case mismatch =>
    apply byteEvent_faults hs hf (.inl hm)
    simp only [phaseDispatch, examining_phase, hp]
    exact congrArg _ ((if_neg notToken).trans (if_neg notIdle))

/-! ### Back into bring-up (R209) -/

theorem writeDecision_phase (s : State) : (writeDecision s).phase = .writing := by
  unfold writeDecision
  split <;> rfl

/-- No handler of a phase after bring-up leads back into it but by a fault. -/
theorem PhaseStep.reenters_by_fault {s t : State} (h : PhaseStep s t)
    (hb : s.phase.isBringUp = false) (ht : t.phase.isBringUp = true) : ∃ c, t = raiseFault c s := by
  cases h with
  | fault c => exact ⟨c, rfl⟩
  | metadataDone => rw [writeDecision_phase] at ht; cases ht
  | dataPayload =>
    obtain ⟨p, n, e⟩ := takeAnswer_eq s
    rw [e] at ht
    exact absurd ht (Bool.eq_false_iff.mp hb)
  | cmd1 phase => rcases phase with e | e <;> rw [e] at hb <;> cases hb
  | dummyByte phase | cmd0 phase | cmd8 phase | echoByte phase | cmd16 phase | cmd17 phase
  | readAck phase | token phase | tokenWait phase | metadataByte _ phase | recovered _ phase =>
    rw [phase] at hb; cases hb
  | writeAck | metadataPayload | filler | accepted | busy | firstStatus =>
    exact absurd ht (Bool.eq_false_iff.mp hb)
  | packetEnd | stored | dataDone => cases ht

theorem byteEvent_reenters_by_fault {rx : Byte} {s t : State} (h : byteEvent rx s = .next t)
    (hb : s.phase.isBringUp = false) (ht : t.phase.isBringUp = true) : ∃ c, t = raiseFault c s := by
  rcases byteEvent_outcome h with ⟨-, rfl⟩ | ⟨-, rfl⟩ | ⟨-, hstep⟩
  · rw [frameStep_phase] at ht; exact absurd ht (Bool.eq_false_iff.mp hb)
  · exact absurd ht (Bool.eq_false_iff.mp hb)
  · obtain ⟨c, e⟩ := hstep.reenters_by_fault (by rwa [examining_phase]) ht
    exact ⟨c, e.trans (raiseFault_examining c s)⟩

/-- Settles O43: line by line; `init` resets, an event faults, and the other lines stay outside
bring-up. -/
theorem bringUpIsReenteredOnlyByFaultOrReset : Obligations.BringUpIsReenteredOnlyByFaultOrReset := by
  intro s t op rest _ hscript hop hb h ht
  have stays : t.phase ≠ s.phase := fun e => absurd (e ▸ ht) (Bool.eq_false_iff.mp hb)
  cases op with
  | init =>
    rw [step_of_decode hscript rfl] at h
    rw [execInitialize_next h]
    exact ⟨resetBlock_resetRegisters _, .inl rfl⟩
  | ev rx =>
    rw [step_of_decode hscript rfl] at h
    obtain ⟨c, rfl⟩ := byteEvent_reenters_by_fault (s := s.taking rest) h hb ht
    have taken := raiseFault_taken c (s.taking rest)
    exact ⟨taken.registers, .inr ⟨c, taken.raised⟩⟩
  | rw available =>
    rw [step_of_decode hscript rfl] at h
    rcases execRequestWrite_next h with rfl | rfl | rfl
    · exact absurd rfl stays
    · exact absurd rfl stays
    · rw [writeDecision_phase] at ht; cases ht
  | pay answers =>
    rw [step_pay hscript] at h
    cases h
    exact absurd rfl stays
  | wire bytes => cases hop

/-! ### Runs of events, chained -/

section Chain

variable {s u t : State} {xs ys : List Byte} {rx : Byte}

theorem byteEvents_append_next (h : byteEvents xs s = .next u) (h' : byteEvents ys u = .next t) :
    byteEvents (xs ++ ys) s = .next t := by
  rw [byteEvents_append, h, andThen_of_next, h']

theorem byteEvents_snoc_next (h : byteEvents xs s = .next u) (h' : byteEvent rx u = .next t) :
    byteEvents (xs ++ [rx]) s = .next t :=
  byteEvents_append_next h (by rw [byteEvents, h']; rfl)

end Chain

/-- The last of a run of events, apart from those before it. -/
theorem exists_snoc_of_length {xs : List Byte} {n : Nat} (h : xs.length = n + 1) :
    ∃ ys y, xs = ys ++ [y] ∧ ys.length = n := by
  have nonempty : xs ≠ [] := List.ne_nil_of_length_eq_add_one h
  exact ⟨xs.dropLast, xs.getLast nonempty, (List.dropLast_append_getLast nonempty).symm, by simp [h]⟩

/-! ### The whole echo (R203, R176) -/

theorem byteEvents_echo_next {s : State} {rx : Byte} {rest : List Byte} (k : Nat)
    (hs : s.started = true) (hf : s.inFlight = true) (h : AwaitsEcho s rx k)
    (hp : s.phase = .awaitInterfaceCheck) (hx : echoBytes[k]? = some rx) (hk : k < 4) :
    byteEvents (rx :: rest) s = byteEvents rest
      { s with
        mode := .idle, step := BitVec.ofNat 8 (k + 1), outs := s.outs ++ [.transmit 0xFF] } := by
  rw [byteEvents, byteEvent_echo_next hs hf h hp hx hk, andThen_of_next]

/-- The echo from the wait for the response: idle bytes for four of its bytes, CMD1 for the last. -/
theorem byteEvents_echo {s : State} (hs : s.started = true) (hf : s.inFlight = true)
    (hp : s.phase = .awaitInterfaceCheck) (hm : s.mode = .awaitingResponse) :
    byteEvents [0x01, 0x00, 0x00, 0x01, 0xAA] s = .next
      ({ s with outs := s.outs ++ (List.replicate 4 0xFF).map StepOutcome.transmit }.frameIssued
        ⟨0x41, 0x00, 0x00, 0x00, 0x00, 0x00⟩ .awaitReady) := by
  rw [byteEvents_echo_next 0 hs hf (.inr ⟨hm, by decide, rfl⟩) hp rfl (by decide),
    byteEvents_echo_next 1 (by exact hs) (by exact hf) (.inl ⟨rfl, rfl⟩) (by exact hp) rfl (by decide),
    byteEvents_echo_next 2 (by exact hs) (by exact hf) (.inl ⟨rfl, rfl⟩) (by exact hp) rfl (by decide),
    byteEvents_echo_next 3 (by exact hs) (by exact hf) (.inl ⟨rfl, rfl⟩) (by exact hp) rfl (by decide),
    byteEvents, byteEvent_echo_last (by exact hs) (by exact hf) rfl (by exact hp) rfl]
  simp [byteEvents, State.frameIssued, List.replicate]

/-- Settles O16. -/
theorem wholeEchoStartsInitialization : Obligations.WholeEchoStartsInitialization := by
  intro s hs hf hp hm
  refine (byteEvents_echo hs hf hp hm).trans ?_
  simp [State.frameIssued, List.replicate, hf]

/-! ### The whole bring-up (R208) -/

/-- The wait for the response to a command of phase `p`, the bytes `sent` handed over since `s`. -/
def State.answerAwaited (s : State) (p : Phase) (sent : List Byte) : State :=
  { s with
    phase := p, mode := .awaitingResponse, step := 0, frame := ⟨0, 0, 0, 0, 0, 0⟩, inFlight := true
    outs := s.outs ++ sent.map .transmit }

/-- The bytes on the bus from a frame's first to the idle byte that completes it. -/
def Frame.onBus (f : Frame) : List Byte := [f.b0, f.b1, f.b2, f.b3, f.b4, f.b5, 0xFF]

/-- An issued frame goes out while the next six bytes are ignored. -/
theorem byteEvents_frameSent {s u : State} {f : Frame} {p q : Phase}
    {xs ignored sent : List Byte} (hu : u.started = true)
    (h : byteEvents xs s = .next ((u.answerAwaited p sent).frameIssued f q))
    (six : ignored.length = 6) :
    byteEvents (xs ++ ignored) s = .next (u.answerAwaited q (sent ++ f.onBus)) := by
  refine byteEvents_append_next h ?_
  refine (issuedFrameReachesTheBusWhole (u.answerAwaited p sent) f q ignored hu six).trans ?_
  simp [State.answerAwaited, Frame.onBus]

/-- Dummy bytes while the count stays at 100 or below. -/
theorem byteEvents_dummyBytes (bytes : List Byte) : ∀ {s : State}, s.started = true →
    s.inFlight = true → s.phase = .powerOnClock → s.mode = .idle →
    s.step.toNat + bytes.length ≤ 100 →
    byteEvents bytes s = .next
      { s with
        step := s.step + BitVec.ofNat 8 bytes.length
        outs := s.outs ++ (List.replicate bytes.length 0xFF).map .transmit } := by
  induction bytes with
  | nil => intro s _ _ _ _ _; simp [byteEvents]
  | cons b bs ih =>
    intro s hs hf hp hm hl
    simp only [List.length_cons] at hl
    have below : s.step < 100 := by bv_omega
    rw [byteEvents, byteEvent_dummyByte hs hf b hp hm below, andThen_of_next,
      ih (by exact hs) (by exact hf) (by exact hp) (by exact hm) (by dsimp only; bv_omega)]
    simp [List.replicate_succ, BitVec.ofNat_add, BitVec.add_assoc, BitVec.add_comm]

/-- The 100 dummy bytes and CMD0, with the bytes ignored as it goes out (R201). -/
theorem byteEvents_powerOn {s : State} {dummy ignored : List Byte} (hs : s.started = true)
    (hp : s.phase = .powerOnClock) (hm : s.mode = .idle) (h1 : s.step = 1)
    (hf : s.inFlight = true) (hundred : dummy.length = 100) (six : ignored.length = 6) :
    byteEvents (dummy ++ ignored) s = .next
      ({ s with selected := true }.answerAwaited .awaitReset
        (List.replicate 99 0xFF ++ [0x40, 0x00, 0x00, 0x00, 0x00, 0x95, 0xFF])) := by
  obtain ⟨first, last, rfl, length⟩ := exists_snoc_of_length hundred
  have atHundred : (100 : Byte) ≤ 1 + BitVec.ofNat 8 99 := by decide
  have counted := byteEvents_dummyBytes first hs hf hp hm (by rw [h1, length]; decide)
  rw [h1, length] at counted
  have issued : byteEvents (first ++ [last]) s = .next
      (({ s with selected := true }.answerAwaited .powerOnClock (List.replicate 99 0xFF)).frameIssued
        ⟨0x40, 0x00, 0x00, 0x00, 0x00, 0x95⟩ .awaitReset) :=
    byteEvents_snoc_next counted (byteEvent_powerOnClock_ends (by exact hs) (by exact hf) last
      (by exact hp) (by exact hm) (by exact atHundred))
  exact byteEvents_frameSent (u := { s with selected := true }) hs issued six

/-- From the wait for CMD0's response to the wait for CMD17's: each command is issued on the answer to
the one before, with no gap before the answers. -/
theorem byteEvents_commandsAnswered {s u : State} {xs sent g8 g1 g16 g17 : List Byte}
    (hu : u.started = true) (h : byteEvents xs s = .next (u.answerAwaited .awaitReset sent))
    (six8 : g8.length = 6) (six1 : g1.length = 6) (six16 : g16.length = 6)
    (six17 : g17.length = 6) :
    byteEvents (xs ++ [0x01] ++ g8 ++ [0x01, 0x00, 0x00, 0x01, 0xAA] ++ g1 ++ [0x00] ++ g16 ++
      [0x00] ++ g17) s = .next
      (u.answerAwaited .awaitReadAck
        (sent ++ [0x48, 0x00, 0x00, 0x01, 0xAA, 0x87, 0xFF] ++ List.replicate 4 0xFF ++
          [0x41, 0x00, 0x00, 0x00, 0x00, 0x00, 0xFF] ++
          [0x50, 0x00, 0x00, 0x00, 0x80, 0x00, 0xFF] ++
          [0x51, 0x00, 0x00, 0x00, 0x00, 0x00, 0xFF])) := by
  have started {p : Phase} {bytes : List Byte} : (u.answerAwaited p bytes).started = true := hu
  have waits {p : Phase} {bytes : List Byte} :
      (u.answerAwaited p bytes).mode ≠ .sendingCommand := nofun
  have echo (bytes : List Byte) :
      byteEvents [0x01, 0x00, 0x00, 0x01, 0xAA] (u.answerAwaited .awaitInterfaceCheck bytes) =
        .next ((u.answerAwaited .awaitInterfaceCheck (bytes ++ List.replicate 4 0xFF)).frameIssued
          ⟨0x41, 0x00, 0x00, 0x00, 0x00, 0x00⟩ .awaitReady) := by
    rw [byteEvents_echo started rfl rfl rfl]
    simp [State.answerAwaited]
  have cmd8 := byteEvents_frameSent hu
    (byteEvents_snoc_next h (byteEvent_awaitReset_idle started rfl waits rfl)) six8
  have cmd1 := byteEvents_frameSent hu (byteEvents_append_next cmd8 (echo _)) six1
  have cmd16 := byteEvents_frameSent hu
    (byteEvents_snoc_next cmd1 (byteEvent_awaitReady_ready started rfl waits rfl)) six16
  exact byteEvents_frameSent hu
    (byteEvents_snoc_next cmd16 (byteEvent_awaitBlockLenAck_ready started rfl waits rfl)) six17

/-- The 130th byte of the read packet recovers the cursor and pauses in Ready (R231). -/
theorem byteEvent_lastPacketByte {s : State} (rx : Byte) (hs : s.started = true)
    (hf : s.inFlight = true) (hp : s.phase = .readMetadataBlock) (hm : s.mode = .idle)
    (hk : s.step = 129) :
    byteEvent rx s = .next
      { s with
        cursor := validate (recover s.cursor s.cursorAlt s.metaC), step := 0, phase := .ready
        inFlight := false, outs := s.outs ++ [.pause] } := by
  have padding : 12 ≤ s.step := by rw [hk]; decide
  rw [byteEvent_idle rx hs hf hm]
  simp only [phaseDispatch, hp, handleReadMetadataBlock]
  rw [captureByte_of_padding rx (by exact padding), countPacketByte, if_pos (by rw [hk]; rfl)]
  rfl

/-- The whole read packet: 129 idle bytes, then the pause in Ready with the recovered cursor. -/
theorem byteEvents_readPacket {s : State} (a0 a1 a2 a3 b0 b1 b2 b3 c0 c1 c2 c3 : Byte)
    {rest : List Byte} (hs : s.started = true) (hf : s.inFlight = true)
    (hp : s.phase = .readMetadataBlock) (hm : s.mode = .idle) (h0 : s.step = 0)
    (hl : rest.length = 118) :
    byteEvents ([a0, a1, a2, a3, b0, b1, b2, b3, c0, c1, c2, c3] ++ rest) s = .next
      { s with
        cursor := validate (recover (be32 a0 a1 a2 a3) (be32 b0 b1 b2 b3) (be32 c0 c1 c2 c3))
        cursorAlt := be32 b0 b1 b2 b3, metaC := be32 c0 c1 c2 c3
        step := 0, phase := .ready, inFlight := false
        outs := s.outs ++ List.replicate 129 (.transmit 0xFF) ++ [.pause] } := by
  obtain ⟨padding, last, rfl, length⟩ := exists_snoc_of_length hl
  have atLast : (12 : Byte) + BitVec.ofNat 8 117 = 129 := by decide
  have afterCopies : 12 ≤ (12 : Byte).toNat := by decide
  have beforeLast : (12 : Byte).toNat + 117 < 130 := by decide
  have captured := metadata_copies a0 a1 a2 a3 b0 b1 b2 b3 c0 c1 c2 c3 hs hf hp hm h0
  have counted := metadata_padding padding
    (s := { s with
      cursor := be32 a0 a1 a2 a3, cursorAlt := be32 b0 b1 b2 b3, metaC := be32 c0 c1 c2 c3
      step := 12, outs := s.outs ++ List.replicate 12 (.transmit 0xFF) })
    hs hf hp hm afterCopies (by rw [length]; exact beforeLast)
  rw [length] at counted
  have recovered := byteEvents_snoc_next (byteEvents_append_next captured counted)
    (byteEvent_lastPacketByte last (by exact hs) (by exact hf) (by exact hp) (by exact hm)
      (by exact atLast))
  rw [← List.append_assoc, recovered]
  simp

/-- Settles O53: the power-on bytes and CMD0, the commands answered one by one, the acknowledgement
of the read, the token, the packet. -/
theorem bringUpTakesTwoHundredSeventyEvents :
    Obligations.BringUpTakesTwoHundredSeventyEvents := by
  intro s dummy g0 g8 g1 g16 g17 rest a0 a1 a2 a3 b0 b1 b2 b3 c0 c1 c2 c3 hs hp hm h1 hf hundred
    six0 six8 six1 six16 six17 hl
  refine ⟨by simp [hundred, six0, six8, six1, six16, six17, hl], ?_⟩
  have commands := byteEvents_commandsAnswered (u := { s with selected := true }) hs
    (byteEvents_powerOn hs hp hm h1 hf hundred six0) six8 six1 six16 six17
  have acknowledged := byteEvents_snoc_next commands
    (byteEvent_awaitReadAck_ready (by exact hs) rfl nofun rfl)
  have token := byteEvents_snoc_next acknowledged (byteEvent_token (by exact hs) rfl rfl rfl)
  have packet := byteEvents_append_next token
    (byteEvents_readPacket a0 a1 a2 a3 b0 b1 b2 b3 c0 c1 c2 c3 (by exact hs) rfl rfl rfl rfl hl)
  rw [← List.append_assoc] at packet
  refine ⟨_, packet, rfl, rfl, rfl, rfl, rfl, rfl, rfl, rfl, rfl, rfl, rfl, rfl, rfl, rfl, rfl, rfl,
    rfl, hs, rfl, ?_⟩
  simp only [State.answerAwaited, List.map_append, List.map_replicate, List.append_assoc]
  rfl

end Sys2Proof.Machine

/-! ## Metadata and position recovery (43_metadata_recovery.md) -/

namespace Sys2Proof.Machine

/-! ### The read packet, byte by byte (R230, R231) -/

/-- Which registers a packet byte reaches, by its index `s.step` (R230). -/
theorem captureByte_eq_shift_by_index (rx : Byte) (s : State) :
    captureByte rx s =
      { s with
        cursor := if s.step ≤ 3 then shiftIn s.cursor rx else s.cursor
        cursorAlt := if 4 ≤ s.step ∧ s.step ≤ 7 then shiftIn s.cursorAlt rx else s.cursorAlt
        metaC := if 8 ≤ s.step ∧ s.step ≤ 11 then shiftIn s.metaC rx else s.metaC } := by
  by_cases copyA : s.step ≤ 3
  · have notB : ¬ (4 ≤ s.step ∧ s.step ≤ 7) := by bv_omega
    have notC : ¬ (8 ≤ s.step ∧ s.step ≤ 11) := by bv_omega
    simp only [captureByte, if_pos copyA, if_neg notB, if_neg notC]
  by_cases copyB : s.step ≤ 7
  · have inB : 4 ≤ s.step ∧ s.step ≤ 7 := by bv_omega
    have notC : ¬ (8 ≤ s.step ∧ s.step ≤ 11) := by bv_omega
    simp only [captureByte, if_neg copyA, if_pos copyB, if_pos inB, if_neg notC]
  have notB : ¬ (4 ≤ s.step ∧ s.step ≤ 7) := fun h => copyB h.2
  by_cases copyC : s.step ≤ 11
  · have inC : 8 ≤ s.step ∧ s.step ≤ 11 := by bv_omega
    simp only [captureByte, if_neg copyA, if_neg copyB, if_pos copyC, if_neg notB, if_pos inC]
  · have notC : ¬ (8 ≤ s.step ∧ s.step ≤ 11) := fun h => copyC h.2
    simp only [captureByte, if_neg copyA, if_neg copyB, if_neg copyC, if_neg notB, if_neg notC]

/-- Before the 130th byte a packet byte is counted and the idle byte handed over. -/
theorem countPacketByte_of_lt {s : State} (hk : s.step < 129) :
    countPacketByte s = transmit idleTx { s with step := s.step + 1 } := by
  have notLast : ¬ s.step + 1 = readPacketLen := by
    unfold readPacketLen
    bv_omega
  rw [countPacketByte, if_neg notLast]

/-- Settles O21: below index 129 by the rule of `captureByte`, at 129 by `byteEvent_lastPacketByte`. -/
theorem metadataBytesAreCaptured : Obligations.MetadataBytesAreCaptured := by
  intro s rx hs hf hp hm
  refine ⟨fun hk => ?captured, byteEvent_lastPacketByte rx hs hf hp hm⟩
  calc byteEvent rx s
      = .next (countPacketByte (captureByte rx { s with inFlight := false })) := by
        rw [byteEvent_idle rx hs hf hm]
        simp only [phaseDispatch, hp, handleReadMetadataBlock]
    _ = _ := by
        rw [captureByte_eq_shift_by_index, countPacketByte_of_lt (by exact hk), transmit, ← hf]
        rfl

/-- Settles O22: READ_PACKET_IN is its 130 events, so `byteEvents_readPacket` is its meaning. -/
theorem readPacketRecoversTheCursor : Obligations.ReadPacketRecoversTheCursor :=
  fun _ a0 a1 a2 a3 b0 b1 b2 b3 c0 c1 c2 c3 _ hs hf hp hm h0 hl =>
    byteEvents_readPacket a0 a1 a2 a3 b0 b1 b2 b3 c0 c1 c2 c3 hs hf hp hm h0 hl

/-! ### `recover` (R232, R233) -/

theorem recover_of_last_two_equal (a v : Word) : recover a v v = v := by
  by_cases h : a = v
  · rw [h, recover_of_first_two_equal]
  · rw [recover, if_neg h, if_pos rfl]

/-- Copy A is the fallback whenever B and C disagree, whether or not one of them agrees with A. -/
theorem recover_of_last_two_ne {b c : Word} (a : Word) (h : b ≠ c) : recover a b c = a := by
  unfold recover
  rw [if_neg h, ite_self]

theorem recover_of_outer_equal (v b : Word) : recover v b v = v := by
  by_cases h : b = v
  · rw [h, recover_of_first_two_equal]
  · exact recover_of_last_two_ne v h

/-- Settles O23. -/
theorem recoverIsMajorityOrFirst : Obligations.RecoverIsMajorityOrFirst := by
  intro a b c
  refine ⟨?firstTwo, ?lastTwo, ?outer, fun _ hbc _ => recover_of_last_two_ne a hbc⟩
  case firstTwo => rintro rfl; exact recover_of_first_two_equal a c
  case lastTwo => rintro rfl; exact recover_of_last_two_equal a b
  case outer => rintro rfl; exact recover_of_outer_equal a b

theorem ne_of_copiesDisagree {a b c : Word} (h : copiesDisagree a b c = true) : b ≠ c := by
  simp only [copiesDisagree, Bool.and_eq_true, bne_iff_ne] at h
  obtain ⟨⟨-, hbc⟩, -⟩ := h
  exact hbc

/-- Settles O25: the packet's state has `raised` as it was, and `recover` falls back to copy A. -/
theorem disagreeingCopiesAreNoFault : Obligations.DisagreeingCopiesAreNoFault := by
  intro s a0 a1 a2 a3 b0 b1 b2 b3 c0 c1 c2 c3 rest hs hf hp hm h0 hl hd
  refine ⟨_, byteEvents_readPacket a0 a1 a2 a3 b0 b1 b2 b3 c0 c1 c2 c3 hs hf hp hm h0 hl, rfl, ?_⟩
  exact congrArg validate (recover_of_last_two_ne _ (ne_of_copiesDisagree hd))

/-! ### `validate` (R235, R236) -/

/-- Zero and every word that is no region start give the default. -/
theorem validate_of_invalid {v : Word} (h : v = 0 ∨ v &&& 0x3FFFF ≠ 0) :
    validate v = 0x00040000 :=
  if_pos h

theorem validate_of_valid {v : Word} (h0 : v ≠ 0) (h : v &&& 0x3FFFF = 0) :
    validate v = v + 0x00040000 := by
  rw [validate_of_regionStart h, if_neg h0]

/-- Only the last region is followed by address 0. -/
theorem validate_eq_zero_iff (v : Word) : validate v = 0 ↔ v = 0xFFFC0000 := by
  by_cases invalid : v = 0 ∨ v &&& 0x3FFFF ≠ 0
  · rw [validate_of_invalid invalid]
    have notLast : v ≠ 0xFFFC0000 := by
      rintro rfl
      exact absurd invalid (by decide)
    exact iff_of_false (by decide) notLast
  · obtain ⟨h0, h⟩ := not_or.mp invalid
    rw [validate_of_valid h0 (not_not.mp h)]
    constructor <;> intro <;> bv_omega

/-- Settles O24. -/
theorem validateAdvancesOneRegionOrRestarts : Obligations.ValidateAdvancesOneRegionOrRestarts :=
  fun v => ⟨validate_of_invalid, validate_of_valid, (mask_eq_zero_iff _).mp (validate_region_mask v),
    validate_eq_zero_iff v⟩

/-- Region `k` starts at `Q * k`, below the end of the address space. -/
theorem regionStart_toNat {k : Nat} (hk : k ≤ 16382) :
    (0x00040000 * BitVec.ofNat 32 k : Word).toNat = 0x00040000 * k := by
  simp only [BitVec.toNat_mul, BitVec.toNat_ofNat, BitVec.reduceToNat]
  omega

/-- Between the first region and the wrap, region `k` advances to region `k + 1`. -/
theorem validate_region {k : Nat} (h1 : 1 ≤ k) (hk : k ≤ 16382) :
    validate (0x00040000 * BitVec.ofNat 32 k) = 0x00040000 * BitVec.ofNat 32 (k + 1) := by
  have start := regionStart_toNat hk
  have aligned : (0x00040000 * BitVec.ofNat 32 k : Word) &&& 0x3FFFF = 0 := by
    rw [mask_eq_zero_iff, start, Nat.mul_mod_right]
  have nonzero : (0x00040000 * BitVec.ofNat 32 k : Word) ≠ 0 := by
    intro h
    have zero : (0 : Nat) = 0x00040000 * k := by rw [← start, h]; rfl
    omega
  rw [validate_of_valid nonzero aligned, BitVec.ofNat_add, BitVec.mul_add]
  rfl

/-- Settles O26. -/
theorem validateCornerCases : Obligations.ValidateCornerCases :=
  ⟨validate_of_invalid (by decide), validate_of_invalid (by decide),
    (validate_eq_zero_iff _).mpr rfl, validate_of_valid (by decide) (by decide),
    fun _ h => validate_of_invalid (.inr h), fun _ h1 hk => validate_region h1 hk⟩

end Sys2Proof.Machine

/-! ## Block write: the phases one by one, and the whole write cycles (44_block_write.md) -/

namespace Sys2Proof.Machine

/-- The first byte of a response is examined in mode Idle at `s.step` 0 (R146). -/
theorem examining_of_firstByte {s : State}
    (h : s.mode = .awaitingResponse ∨ s.mode = .idle ∧ s.step = 0) :
    examining s = { s with inFlight := false, mode := .idle, step := 0 } := by
  rcases h with hm | ⟨hm, hk⟩
  · simp only [examining, hm]
  · rw [examining_of_idle hm, ← hm, ← hk]

section Examined

variable {s : State} {rx : Byte} (hs : s.started = true) (hf : s.inFlight = true)

include hs hf

/-! ### Writing: the acknowledgement and the packet (R253 to R257) -/

section Writing

variable (hp : s.phase = .writing)

include hp

/-- The acknowledgement that DATA_TOKEN_OUT stands for. -/
theorem byteEvent_writeAck (h : s.mode = .awaitingResponse ∨ s.mode = .idle ∧ s.step = 0) :
    byteEvent 0x00 s = .next
      { s with mode := .idle, step := 1, outs := s.outs ++ [.transmit 0xFE] } :=
  (handOver_next (execDataTokenOut_due hs hf hp h)).2

theorem byteEvent_writeAck_fails
    (h : s.mode = .idle ∧ s.step = 0 ∨ s.mode = .awaitingResponse ∧ rx ≠ 0xFF) (hx : rx ≠ 0x00) :
    ∃ t, byteEvent rx s = .next t ∧ FaultTaken .writeAckFailure s t := by
  have he : examines s rx := h.imp_left And.left
  have first : (examining s).step = 0 := by
    rw [examining_of_firstByte (h.symm.imp_left And.left)]
  apply byteEvent_faults hs hf he
  simp only [phaseDispatch, examining_phase, hp]
  exact congrArg _ ((if_pos first).trans (if_pos hx))

/-- Past the token an event is the packet's, whatever it receives. -/
theorem byteEvent_packet (rx : Byte) (hm : s.mode = .idle) (hk : s.step ≠ 0) :
    byteEvent rx s = .next (handleWritingPacket { s with inFlight := false }) := by
  rw [byteEvent_idle rx hs hf hm]
  simp only [phaseDispatch, hp, handleWriting, if_neg hk]

/-- A payload byte of a data block is the payload source's next answer (R256). -/
theorem byteEvent_dataPayload (rx : Byte) (hm : s.mode = .idle) (hv : s.variant = .data)
    (first : 1 ≤ s.step) (last : s.step ≤ 128) :
    byteEvent rx s = .next
      (sendPayloadByte (dataByte (nextAnswer s)) (takeAnswer { s with inFlight := false })) := by
  have inPacket : s.step ≠ 0 := by bv_omega
  rw [byteEvent_packet hs hf hp rx hm inPacket, handleWritingPacket, if_pos (by exact last)]
  simp only [hv]
  rfl

theorem byteEvent_filler (rx : Byte) (hm : s.mode = .idle) (hk : s.step = 129 ∨ s.step = 130) :
    byteEvent rx s = .next
      { s with step := s.step + 1, outs := s.outs ++ [.transmit Config.fillerByte] } := by
  have inPacket : s.step ≠ 0 := by bv_omega
  have pastPayload : ¬ s.step ≤ 128 := by bv_omega
  have inFillers : s.step ≤ 130 := by bv_omega
  rw [byteEvent_packet hs hf hp rx hm inPacket, handleWritingPacket, if_neg (by exact pastPayload),
    if_pos (by exact inFillers)]
  exact congrArg _ (transmit_completed (s := { s with step := s.step + 1 }) _ hf)

theorem byteEvent_packetEnd (rx : Byte) (hm : s.mode = .idle) (hk : s.step = 131) :
    byteEvent rx s = .next
      { s with phase := .awaitWriteBusy, step := 0, outs := s.outs ++ [.transmit 0xFF] } := by
  have inPacket : s.step ≠ 0 := by bv_omega
  have pastPayload : ¬ s.step ≤ 128 := by bv_omega
  have pastFillers : ¬ s.step ≤ 130 := by bv_omega
  rw [byteEvent_packet hs hf hp rx hm inPacket, handleWritingPacket, if_neg (by exact pastPayload),
    if_neg (by exact pastFillers)]
  exact congrArg _
    (transmit_completed (s := { s with phase := .awaitWriteBusy, step := 0 }) 0xFF hf)

end Writing

/-! ### AwaitWriteBusy: the accept token and the busy poll (R258, R259) -/

section AwaitWriteBusy

variable (hp : s.phase = .awaitWriteBusy) (hm : s.mode = .idle)

include hp hm

theorem byteEvent_awaitWriteBusy (rx : Byte) :
    byteEvent rx s = .next (handleAwaitWriteBusy rx { s with inFlight := false }) := by
  rw [byteEvent_idle rx hs hf hm]
  simp only [phaseDispatch, hp]

theorem byteEvent_accepted (hk : s.step = 0) (hx : rx &&& 0x0F = 0x05) :
    byteEvent rx s = .next { s with step := 1, outs := s.outs ++ [.transmit 0xFF] } := by
  have accepted : isAcceptToken rx = true := beq_iff_eq.mpr hx
  rw [byteEvent_awaitWriteBusy hs hf hp hm, handleAwaitWriteBusy, if_pos hk, if_pos accepted]
  exact congrArg _ (transmit_completed (s := { s with step := 1 }) 0xFF hf)

theorem byteEvent_notAccepted (hk : s.step = 0) (hx : rx &&& 0x0F ≠ 0x05) :
    ∃ t, byteEvent rx s = .next t ∧ FaultTaken .writeAckFailure s t := by
  have rejected : ¬ isAcceptToken rx = true := fun e => hx (beq_iff_eq.mp e)
  have first : (examining s).step = 0 := by rw [examining_of_idle hm, ← hk]
  apply byteEvent_faults hs hf (.inl hm)
  simp only [phaseDispatch, examining_phase, hp]
  exact congrArg _ ((if_pos first).trans (if_neg rejected))

theorem byteEvent_busy (hk : s.step ≠ 0) :
    byteEvent 0xFF s = .next { s with outs := s.outs ++ [.transmit 0xFF] } := by
  rw [byteEvent_awaitWriteBusy hs hf hp hm, handleAwaitWriteBusy, if_neg (by exact hk),
    handleBusyPoll, if_pos rfl]
  exact congrArg _ (transmit_completed 0xFF hf)

/-- Any byte but `0xFF` ends the busy poll as the `0x00` of CMD13's row does. -/
theorem byteEvent_busyPoll_ends (hk : s.step ≠ 0) (hx : rx ≠ 0xFF) :
    byteEvent rx s = .next
      { s.frameIssued ⟨0x4D, 0x00, 0x00, 0x00, 0x00, 0x00⟩ .awaitStatus with
        mem := (commitWrite s).mem } := by
  have ends {x : Byte} (h : x ≠ 0xFF) :
      byteEvent x s = .next (issueCmd13 (commitWrite { s with inFlight := false })) := by
    rw [byteEvent_awaitWriteBusy hs hf hp hm, handleAwaitWriteBusy, if_neg (by exact hk),
      handleBusyPoll, if_neg h]
  have zero : (0x00 : Byte) ≠ 0xFF := by decide
  rw [ends hx, ← ends zero]
  exact (handOver_next (execCmd13_issues hs hf hp hm hk)).2

end AwaitWriteBusy

/-! ### AwaitStatus: two zero bytes (R260 to R263) -/

section AwaitStatus

variable (hp : s.phase = .awaitStatus)

include hp

theorem byteEvent_firstStatus (h : s.mode = .awaitingResponse ∨ s.mode = .idle ∧ s.step = 0) :
    byteEvent 0x00 s = .next
      { s with mode := .idle, step := 1, outs := s.outs ++ [.transmit 0xFF] } := by
  have he : examines s 0x00 :=
    h.elim (fun hm => .inr ⟨hm, by decide⟩) fun ⟨hm, _⟩ => .inl hm
  calc byteEvent 0x00 s
      = .next (handleAwaitStatus 0x00 (examining s)) := by
        rw [byteEvent_examined hs hf he]; simp only [phaseDispatch, examining_phase, hp]
    _ = .next (transmit idleTx { s with inFlight := false, mode := .idle, step := 1 }) := by
        rw [examining_of_firstByte h, handleAwaitStatus, if_neg (by decide), if_pos rfl]
    _ = _ := congrArg _ (transmit_completed (s := { s with mode := .idle, step := 1 }) 0xFF hf)

theorem byteEvent_status_fails (he : examines s rx) (hx : rx ≠ 0x00) :
    ∃ t, byteEvent rx s = .next t ∧ FaultTaken .writeAckFailure s t := by
  apply byteEvent_faults hs hf he
  simp only [phaseDispatch, examining_phase, hp]
  exact congrArg _ (if_pos hx)

/-- The second status byte of a metadata block is the event CMD24's row stands for there. -/
theorem byteEvent_metadataDone (hm : s.mode = .idle) (hk : s.step ≠ 0) (hv : s.variant = .super) :
    byteEvent 0x00 s = .next s.dataWriteOpened :=
  (handOver_next ((exec_cmd24_inFlight s.cursor hs hf).symm.trans
    (execCmd24_after_metadata hs hf hp hm hk hv).1)).2

theorem byteEvent_dataDone (hm : s.mode = .idle) (hk : s.step ≠ 0) (hv : s.variant = .data) :
    byteEvent 0x00 s = .next
      { s with
        selected := false, phase := .ready, step := 0, inFlight := false, pending := none
        outs := s.outs ++ [.pause] } := by
  rw [byteEvent_idle _ hs hf hm]
  simp only [phaseDispatch, hp, handleAwaitStatus, if_neg hk, awaitStatusDone, hv, deselectIdle]
  rw [if_neg (by decide), pause, deselect, ← hv]

end AwaitStatus

end Examined

/-- Settles O28. -/
theorem superPayloadByteGoesOut : Obligations.SuperPayloadByteGoesOut :=
  fun _ rx k hs hf hp hm hv hk hst => super_byte rx k hs hf hp hm hv hk hst

/-- Settles O34: the poll goes on, or ends with the block of the write under way stored. -/
theorem busyPollEndsWithTheBlockStored : Obligations.BusyPollEndsWithTheBlockStored := by
  intro s rx hs hf hp hm hk
  have busy := byteEvent_busy hs hf hp hm hk
  refine ⟨busy, busy, fun hx => ⟨_, byteEvent_busyPoll_ends hs hf hp hm hk hx,
    commitWrite_mem_of_none, fun w hw hl => ?stored⟩⟩
  case stored =>
    rw [commitWrite_mem_of_some hw]
    exact writeBlock_stores s.mem hl

/-- Settles O27. -/
theorem writeAckSendsTheDataToken : Obligations.WriteAckSendsTheDataToken := by
  intro s rx hs hf hp h
  refine ⟨?acknowledged, byteEvent_writeAck_fails hs hf hp h⟩
  case acknowledged =>
    rintro rfl
    have token := byteEvent_writeAck hs hf hp (h.symm.imp_left And.left)
    exact ⟨token, token⟩

/-- Settles O29: the answer is the next scripted one, or the free value of this request. -/
theorem dataPayloadByteIsPulled : Obligations.DataPayloadByteIsPulled := by
  intro s rx hs hf hp hm hv first last
  have pulled := byteEvent_dataPayload hs hf hp rx hm hv first last
  refine ⟨fun a rest loaded => ?scripted, fun empty => ⟨_, rfl, ?free⟩⟩
  case scripted =>
    refine pulled.trans ?_
    simp only [sendPayloadByte, nextAnswer, takeAnswer, loaded, dataByte, transmit, ← hf]
  case free =>
    refine pulled.trans ?_
    simp only [sendPayloadByte, nextAnswer, takeAnswer, empty, dataByte, transmit, ← hf]

/-- Settles O30. -/
theorem fillersThenCompletion : Obligations.FillersThenCompletion :=
  fun _ rx hs hf hp hm => ⟨byteEvent_filler hs hf hp rx hm, byteEvent_packetEnd hs hf hp rx hm⟩

theorem acceptToken_lowNibble (high : BitVec 4) :
    (high ++ (0x5 : BitVec 4) : Byte) &&& 0x0F = 0x05 := by
  revert high
  decide

/-- Settles O33. -/
theorem acceptTokenIsTheLowNibble : Obligations.AcceptTokenIsTheLowNibble :=
  fun _ _ high hs hf hp hm hk =>
    ⟨byteEvent_accepted hs hf hp hm hk (acceptToken_lowNibble high),
      byteEvent_accepted hs hf hp hm hk, byteEvent_notAccepted hs hf hp hm hk⟩

/-- Settles O35. -/
theorem firstStatusByte : Obligations.FirstStatusByte := by
  intro s rx hs hf hp he
  refine ⟨?zero, byteEvent_status_fails hs hf hp he⟩
  case zero =>
    rintro rfl first
    have firstByte : s.mode = .awaitingResponse ∨ s.mode = .idle ∧ s.step = 0 :=
      he.elim (fun hm => first.imp_right fun hk => ⟨hm, hk⟩) fun ⟨hm, _⟩ => .inl hm
    have status := byteEvent_firstStatus hs hf hp firstByte
    exact ⟨status, status⟩

/-- Settles O36. -/
theorem secondStatusByte : Obligations.SecondStatusByte :=
  fun _ hs hf hp hm hk =>
    ⟨byteEvent_metadataDone hs hf hp hm hk, byteEvent_dataDone hs hf hp hm hk⟩

/-! ### The two status bytes as one unit (R260 to R263) -/

section StatusUnit

variable {s : State} (hs : s.started = true) (hf : s.inFlight = true)
  (hp : s.phase = .awaitStatus) (hm : s.mode = .awaitingResponse)

include hs hf hp hm

theorem byteEvents_dataStatus (hv : s.variant = .data) :
    byteEvents [0x00, 0x00] s = .next
      { s with
        selected := false, phase := .ready, mode := .idle, step := 0, inFlight := false
        pending := none, outs := s.outs ++ [.transmit 0xFF, .pause] } := by
  rw [byteEvents, byteEvent_firstStatus hs hf hp (.inl hm), andThen_of_next, byteEvents,
    byteEvent_dataDone (by exact hs) (by exact hf) (by exact hp) rfl (by simp) (by exact hv)]
  simp [byteEvents]

theorem byteEvents_metadataStatus (hv : s.variant = .super) :
    byteEvents [0x00, 0x00] s = .next
      { s with outs := s.outs ++ [StepOutcome.transmit 0xFF] }.dataWriteOpened := by
  rw [byteEvents, byteEvent_firstStatus hs hf hp (.inl hm), andThen_of_next, byteEvents,
    byteEvent_metadataDone (by exact hs) (by exact hf) (by exact hp) rfl (by simp) (by exact hv)]
  rfl

end StatusUnit

/-- Settles O37. -/
theorem statusUnitEndsTheWrite : Obligations.StatusUnitEndsTheWrite := by
  intro s hs hf hp hm
  refine ⟨byteEvents_dataStatus hs hf hp hm,
    fun hv => ⟨_, byteEvents_metadataStatus hs hf hp hm hv, ?_⟩⟩
  have reported : s.outs ++ [StepOutcome.transmit 0xFF] ++ [.transmit 0x58] =
      s.outs ++ [.transmit 0xFF, .transmit 0x58] := List.append_assoc _ _ _
  exact ⟨rfl, rfl, rfl, rfl, rfl, rfl, rfl, rfl, rfl, reported, rfl, rfl, rfl, rfl, rfl, rfl, rfl,
    rfl, rfl, rfl⟩

/-! ### One block, from its CMD24 to the wait for the status (R253 to R259) -/

/-- The payload of the block that `s` writes is `p`, and its packet leaves `rest` of the payload
source's answers (R109, R110). -/
def CarriesPayload (s : State) (p : List Byte) (rest : List PayloadAnswer) : Prop :=
  s.variant = .data ∧ p.length = 128 ∧ s.payload = p.map (fun b => ⟨true, b⟩) ++ rest ∨
  s.variant = .super ∧ p = superPayload s.cursor ∧ s.payload = rest

/-- The whole packet, whichever variant it is. -/
theorem byteEvents_packet {s : State} {events p : List Byte} {rest : List PayloadAnswer}
    (hs : s.started = true) (hf : s.inFlight = true) (hp : s.phase = .writing)
    (hm : s.mode = .idle) (h1 : s.step = 1) (hl : events.length = 131)
    (h : CarriesPayload s p rest) :
    byteEvents events s = .next
      { s with
        phase := .awaitWriteBusy, step := 0, payload := rest
        pending := s.pending.map fun w => { w with data := w.data ++ p }
        outs := s.outs ++ p.map .transmit ++
          [.transmit Config.fillerByte, .transmit Config.fillerByte, .transmit 0xFF] } := by
  rcases h with ⟨hv, length, loaded⟩ | ⟨hv, rfl, rfl⟩
  · exact data_packet events p hl hs hf hp hm h1 hv length rest loaded
  · exact super_packet events hl hs hf hp hm h1 hv

theorem byteEvents_busy (n : Nat) : ∀ {s : State}, s.started = true → s.inFlight = true →
    s.phase = .awaitWriteBusy → s.mode = .idle → s.step ≠ 0 →
    byteEvents (List.replicate n 0xFF) s = .next
      { s with outs := s.outs ++ (List.replicate n 0xFF).map .transmit } := by
  induction n with
  | zero => intro s _ _ _ _ _; simp [byteEvents]
  | succ n ih =>
    intro s hs hf hp hm hk
    rw [List.replicate_succ, byteEvents, byteEvent_busy hs hf hp hm hk, andThen_of_next,
      ih (by exact hs) (by exact hf) (by exact hp) (by exact hm) (by exact hk)]
    simp

/-- The bytes received from a block's CMD24 to the idle byte that completes its CMD13: ignored bytes
for the frame, the acknowledgement, ignored bytes for the packet, the accept token, `n` busy bytes,
the byte that ends the poll, ignored bytes for the frame. -/
def blockEvents (g24 packet : List Byte) (high : BitVec 4) (n : Nat) (last : Byte)
    (g13 : List Byte) : List Byte :=
  g24 ++ [0x00] ++ packet ++ [high ++ (0x5 : BitVec 4)] ++ List.replicate n 0xFF ++ [last] ++ g13

/-- The bytes handed over meanwhile, from the frame's first. -/
def blockSent (cmd24 : Frame) (p : List Byte) (n : Nat) : List Byte :=
  cmd24.onBus ++ [0xFE] ++ p ++ [Config.fillerByte, Config.fillerByte, 0xFF] ++ [0xFF] ++
    List.replicate n 0xFF ++ [0x4D, 0x00, 0x00, 0x00, 0x00, 0x00, 0xFF]

/-- The write that CMD24 opened, up to the wait for CMD13's response: the block is stored (R76). -/
theorem byteEvents_blockStored {s : State} {cmd24 : Frame} {addr : Word}
    {p g24 packet g13 : List Byte} {rest : List PayloadAnswer} {n : Nat} {last : Byte}
    (high : BitVec 4)
    (hs : s.started = true) (opened : s.pending = some ⟨addr, []⟩)
    (carries : CarriesPayload s p rest)
    (six24 : g24.length = 6) (packet131 : packet.length = 131) (six13 : g13.length = 6)
    (notBusy : last ≠ 0xFF) :
    byteEvents (blockEvents g24 packet high n last g13) (s.frameIssued cmd24 .writing) = .next
      ({ s with
          payload := rest, pending := some ⟨addr, p⟩
          mem := s.mem.writeBlock addr p }.answerAwaited .awaitStatus (blockSent cmd24 p n)) := by
  have frame : byteEvents g24 (s.frameIssued cmd24 .writing) =
      .next (s.answerAwaited .writing cmd24.onBus) :=
    issuedFrameReachesTheBusWhole s cmd24 .writing g24 hs six24
  have token := byteEvents_snoc_next frame (byteEvent_writeAck (by exact hs) rfl rfl (.inl rfl))
  have sent := byteEvents_append_next token
    (byteEvents_packet (by exact hs) rfl rfl rfl rfl packet131 carries)
  have accepted := byteEvents_snoc_next sent
    (byteEvent_accepted (by exact hs) rfl rfl rfl rfl (acceptToken_lowNibble high))
  have polled := byteEvents_append_next accepted
    (byteEvents_busy n (by exact hs) rfl rfl rfl (by simp))
  have stored := byteEvents_snoc_next polled
    (byteEvent_busyPoll_ends (by exact hs) rfl rfl rfl (by simp) notBusy)
  refine byteEvents_frameSent (f := ⟨0x4D, 0x00, 0x00, 0x00, 0x00, 0x00⟩) (p := .awaitWriteBusy)
    (by exact hs) (stored.trans ?_) six13
  simp [State.answerAwaited, State.frameIssued, opened, commitWrite]

/-! ### The whole cycles (R264) -/

/-- Ready again after the block `p` at the cursor, nothing left under way. -/
def State.dataWritten (s : State) (p : List Byte) (rest : List PayloadAnswer)
    (outs : List StepOutcome) : State :=
  { s with
    phase := .ready, variant := .data, mode := .idle, step := 0, frame := ⟨0, 0, 0, 0, 0, 0⟩
    cursor := s.cursor + 128, superDone := false, selected := false, inFlight := false
    payload := rest, mem := s.mem.writeBlock s.cursor p, pending := none, outs := outs }

section Cycle

variable {s : State} {p g24 packet g13 : List Byte} {n : Nat} {last : Byte} (high : BitVec 4)
  (hs : s.started = true) (six24 : g24.length = 6) (packet131 : packet.length = 131)
  (six13 : g13.length = 6) (notBusy : last ≠ 0xFF)

include hs six24 packet131 six13 notBusy

theorem byteEvents_dataCycle {rest : List PayloadAnswer} (length : p.length = 128)
    (loaded : s.payload = p.map (fun b => ⟨true, b⟩) ++ rest) :
    ∃ outs, byteEvents (blockEvents g24 packet high n last g13 ++ [0x00, 0x00]) s.dataWriteOpened =
      .next (s.dataWritten p rest outs) :=
  have stored := byteEvents_blockStored (n := n) (s := { s with
      selected := true, cursor := s.cursor + 128, superDone := false, variant := .data
      pending := some ⟨s.cursor, []⟩ }) high hs rfl (.inl ⟨rfl, length, loaded⟩)
    six24 packet131 six13 notBusy
  ⟨_, byteEvents_append_next stored (byteEvents_dataStatus (by exact hs) rfl rfl rfl rfl)⟩

theorem byteEvents_metadataCycle (hp : p = superPayload s.cursor) :
    ∃ outs, byteEvents (blockEvents g24 packet high n last g13 ++ [0x00, 0x00]) s.superWriteOpened =
      .next { s with mem := s.mem.writeBlock 0 p, outs := outs }.dataWriteOpened :=
  have stored := byteEvents_blockStored (n := n) (s := { s with
      selected := true, variant := .super, pending := some ⟨0, []⟩ }) high hs rfl
    (.inr ⟨rfl, hp, rfl⟩) six24 packet131 six13 notBusy
  ⟨_, byteEvents_append_next stored (byteEvents_metadataStatus (by exact hs) rfl rfl rfl rfl)⟩

end Cycle

/-- The events of a block and its two status bytes. -/
theorem blockEvents_length {g24 packet g13 : List Byte} (high : BitVec 4) (n : Nat) (last : Byte)
    (six24 : g24.length = 6) (packet131 : packet.length = 131) (six13 : g13.length = 6) :
    (blockEvents g24 packet high n last g13 ++ [0x00, 0x00]).length = 148 + n := by
  simp only [blockEvents, List.length_append, List.length_replicate, six24, packet131, six13,
    List.length_cons, List.length_nil]
  omega

theorem RegistersOk.requestWrite_ready {s : State} (h : RegistersOk s) (hp : s.phase = .ready) :
    exec (.requestWrite true) s = .next (writeDecision s) :=
  execRequestWrite_ready true h.started hp (h.paused.mpr hp)

/-- Settles O54. -/
theorem dataCycleWritesOneBlock : Obligations.DataCycleWritesOneBlock := by
  intro s p g24 packet g13 n high last answers ok hp midRegion length loaded six24 packet131 six13
    notBusy
  obtain ⟨outs, cycle⟩ := byteEvents_dataCycle (n := n) high ok.started six24 packet131 six13
    notBusy length loaded
  obtain ⟨stored, elsewhere⟩ := writeBlock_stores s.mem (w := ⟨s.cursor, p⟩) length
  exact ⟨blockEvents_length high n last six24 packet131 six13, s.dataWriteOpened,
    s.dataWritten p answers outs,
    (ok.requestWrite_ready hp).trans (congrArg _ (writeDecision_data (.inl midRegion)).1), cycle,
    rfl, rfl, rfl, rfl, rfl, rfl, rfl, rfl, stored, elsewhere⟩

/-- A region start other than 0 is far from block 0 (R78). -/
theorem not_inBlock_of_regionStart {cursor : Word} {k : Nat} (hstart : cursor &&& 0x3FFFF = 0)
    (hc : cursor ≠ 0) (hk : k < 128) : ¬ inBlock cursor (0 + BitVec.ofNat 32 k : Word).toNat := by
  rintro ⟨j, hj, e⟩
  have multiple := (mask_eq_zero_iff cursor).mp hstart
  have positive : cursor.toNat ≠ 0 := fun h => hc (BitVec.eq_of_toNat_eq h)
  simp only [BitVec.toNat_add, BitVec.toNat_ofNat, BitVec.reduceToNat] at e
  omega

/-- A block read sees its own addresses only. -/
theorem Memory.readBlock_congr {m m' : Memory} {a : Word} {n : Nat}
    (h : ∀ k, k < n → m.read (a + BitVec.ofNat 32 k).toNat = m'.read (a + BitVec.ofNat 32 k).toNat) :
    m.readBlock a n = m'.readBlock a n := by
  induction n generalizing a with
  | zero => rfl
  | succ n ih =>
    have first : m.read a.toNat = m'.read a.toNat := by simpa using h 0 (Nat.zero_lt_succ n)
    rw [readBlock, readBlock, first, ih]
    intro k hk
    rw [addr_succ]
    exact h (k + 1) (Nat.succ_lt_succ hk)

/-- Settles O55: the metadata block, then the data block, which overwrites it at cursor 0 only. -/
theorem regionStartCycleWritesMetadataThenData :
    Obligations.RegionStartCycleWritesMetadataThenData := by
  intro s p g1 k1 g2 g3 k2 g4 n1 n2 h1 h2 last1 last2 answers ok hp hstart length loaded sixG1
    packet1 sixG2 notBusy1 sixG3 packet2 sixG4 notBusy2 events
  generalize written : superPayload s.cursor = q
  have whole : q.length = 128 := written ▸ superPayload_length s.cursor
  obtain ⟨outs1, first⟩ := byteEvents_metadataCycle (n := n1) h1 ok.started sixG1 packet1 sixG2
    notBusy1 written.symm
  obtain ⟨outs, second⟩ := byteEvents_dataCycle (n := n2)
    (s := { s with mem := s.mem.writeBlock 0 q, outs := outs1 })
    h2 ok.started sixG3 packet2 sixG4 notBusy2 length loaded
  obtain ⟨metadata, outsideMetadata⟩ := writeBlock_stores s.mem (w := ⟨0, q⟩) whole
  obtain ⟨stored, elsewhere⟩ :=
    writeBlock_stores (s.mem.writeBlock 0 q) (w := ⟨s.cursor, p⟩) length
  have total : events.length = 148 + n1 + (148 + n2) := by
    rw [← blockEvents_length h1 n1 last1 sixG1 packet1 sixG2,
      ← blockEvents_length h2 n2 last2 sixG3 packet2 sixG4]
    exact List.length_append
  refine ⟨by omega, s.superWriteOpened, _,
    (ok.requestWrite_ready hp).trans (congrArg _ (writeDecision_super hstart ok.superDone).1),
    byteEvents_append_next first second, rfl, rfl, rfl, rfl, rfl, rfl, rfl, stored,
    fun hc => ?metadataKept, fun a h0 hc => (elsewhere a hc).trans (outsideMetadata a h0)⟩
  case metadataKept =>
    have kept := Memory.readBlock_congr fun k hk =>
      elsewhere _ (not_inBlock_of_regionStart hstart hc hk)
    exact kept.trans metadata

end Sys2Proof.Machine

/-! ## Faults: an event raises what the table of R302 says, and nothing else (60_exceptions.md) -/

namespace Sys2Proof.Machine

/-- The step takes the fault named, or where none is named adds nothing to the classes raised. -/
def Raises (o : Option FaultClass) (s t : State) : Prop :=
  match o with
  | some c => t = raiseFault c s
  | none => t.raised = s.raised

theorem Raises.of_some {o : Option FaultClass} {c : FaultClass} {s : State} (h : o = some c) :
    Raises o s (raiseFault c s) := by
  subst h; rfl

theorem Raises.of_none {o : Option FaultClass} {s t : State} (h : o = none)
    (ht : t.raised = s.raised) : Raises o s t := by
  subst h; exact ht

/-- An operation that faults exactly where the table has a row, after the test that leads elsewhere. -/
theorem Raises.else_fault {p q : Prop} [Decidable p] [Decidable q] {c : FaultClass} {s t : State}
    (h : q ↔ ¬ p) (ht : t.raised = s.raised) :
    Raises (if q then some c else none) s (if p then t else raiseFault c s) := by
  by_cases hp : p
  · rw [if_pos hp]; exact .of_none (if_neg fun hq => h.mp hq hp) ht
  · rw [if_neg hp]; exact .of_some (if_pos (h.mpr hp))

/-- An operation that faults exactly where the table has a row, after the test that says so. -/
theorem Raises.then_fault {p q : Prop} [Decidable p] [Decidable q] {c : FaultClass} {s t : State}
    (h : q ↔ p) (ht : t.raised = s.raised) :
    Raises (if q then some c else none) s (if p then raiseFault c s else t) := by
  by_cases hp : p
  · rw [if_pos hp]; exact .of_some (if_pos (h.mpr hp))
  · rw [if_neg hp]; exact .of_none (if_neg fun hq => hp (h.mp hq)) ht

theorem Raises.faultTaken {o : Option FaultClass} {s t : State} (h : Raises o s t) :
    t.raised = s.raised ++ o.toList ∧ ∀ c, o = some c → FaultTaken c s t := by
  cases o with
  | none =>
    have unchanged : t.raised = s.raised := h
    exact ⟨by simpa using unchanged, nofun⟩
  | some c =>
    obtain rfl : t = raiseFault c s := h
    have taken := raiseFault_taken c s
    exact ⟨taken.raised, fun _ e => Option.some.inj e ▸ taken⟩

/-- What is raised while an event is examined is raised from the state before the event. -/
theorem Raises.of_examining {o : Option FaultClass} {s t : State} (h : Raises o (examining s) t) :
    Raises o s t := by
  cases o with
  | none =>
    obtain ⟨m, k, e⟩ := examining_eq s
    rwa [e] at h
  | some c => exact h.trans (raiseFault_examining c s)

/-! ### The operations that raise nothing -/

theorem frameStep_raised (s : State) : (frameStep s).raised = s.raised := by
  unfold frameStep
  split <;> rfl

theorem writeDecision_raised (s : State) : (writeDecision s).raised = s.raised := by
  unfold writeDecision
  split <;> rfl

theorem handlePowerOnClock_raised (s : State) : (handlePowerOnClock s).raised = s.raised := by
  unfold handlePowerOnClock
  split <;> rfl

theorem handleReadMetadataBlock_raised (rx : Byte) (s : State) :
    (handleReadMetadataBlock rx s).raised = s.raised := by
  obtain ⟨c, a, m, e⟩ := captureByte_eq rx s
  rw [handleReadMetadataBlock, countPacketByte, e]
  split <;> rfl

theorem handleWritingPacket_raised (s : State) : (handleWritingPacket s).raised = s.raised := by
  obtain ⟨p, n, e⟩ := takeAnswer_eq s
  unfold handleWritingPacket
  rw [e]
  split
  · split <;> rfl
  · split <;> rfl

theorem handleBusyPoll_raised (rx : Byte) (s : State) : (handleBusyPoll rx s).raised = s.raised := by
  unfold handleBusyPoll
  rw [commitWrite_eq]
  split <;> rfl

theorem awaitStatusDone_raised (s : State) : (awaitStatusDone s).raised = s.raised := by
  unfold awaitStatusDone
  split
  · exact writeDecision_raised _
  · rfl

/-! ### Each handler, by its rows of the table (R302) -/

/-- The handler masks the low nibble, which the table reads (R258). -/
theorem isAcceptToken_iff (rx : Byte) : isAcceptToken rx = true ↔ rx.extractLsb' 0 4 = 0x5 := by
  have masked : (rx &&& 0x0F).toNat = rx.toNat % 16 := by
    rw [BitVec.toNat_and]; exact Nat.and_two_pow_sub_one_eq_mod rx.toNat 4
  have nibble : (rx.extractLsb' 0 4).toNat = rx.toNat % 16 := by
    simp [BitVec.extractLsb'_toNat]
  rw [isAcceptToken, beq_iff_eq, ← BitVec.toNat_inj, ← BitVec.toNat_inj, masked, nibble]
  rfl

section Handlers

variable {s : State} (rx : Byte) (hm : s.mode = .idle)

include hm

theorem handleAwaitReset_raises (hp : s.phase = .awaitReset) :
    Raises (raisedBy s rx) s (handleAwaitReset rx s) := by
  simp only [raisedBy, hp]
  exact .else_fault (by simp [hm]) rfl

/-- Outside the echo the handler stops (R35), so its comparison is the table's. -/
theorem handleAwaitInterfaceCheck_raises {rx : Byte} {t : State}
    (hp : s.phase = .awaitInterfaceCheck) (h : handleAwaitInterfaceCheck rx s = .next t) :
    Raises (raisedBy s rx) s t := by
  have row : raisedBy s rx =
      if some rx ≠ echoBytes[s.step.toNat]? then some .bringupMismatch else none := by
    simp only [raisedBy, hp, hm, true_or, true_and, if_true]
    rfl
  unfold handleAwaitInterfaceCheck at h
  split at h
  · cases h
  next e inEcho =>
    rw [row, inEcho]
    split at h
    next differs => cases h; exact .of_some (if_pos (by simpa using differs))
    next same =>
      refine .of_none (if_neg (by simpa using same)) ?_
      split at h <;> cases h <;> rfl

theorem handleAwaitReady_raises (hp : s.phase = .awaitReady) :
    Raises (raisedBy s rx) s (handleAwaitReady rx s) := by
  simp only [raisedBy, hp, handleAwaitReady]
  by_cases idle : rx = 0x01
  · rw [if_pos idle]
    exact .of_none (if_neg fun ⟨_, _, notIdle⟩ => notIdle idle) rfl
  · rw [if_neg idle]
    exact .else_fault (by simpa [hm] using fun _ => idle) rfl

theorem handleAwaitBlockLenAck_raises (hp : s.phase = .awaitBlockLenAck) :
    Raises (raisedBy s rx) s (handleAwaitBlockLenAck rx s) := by
  simp only [raisedBy, hp]
  exact .else_fault (by simp [hm]) rfl

theorem handleAwaitReadAck_raises (hp : s.phase = .awaitReadAck) :
    Raises (raisedBy s rx) s (handleAwaitReadAck rx s) := by
  simp only [raisedBy, hp]
  exact .else_fault (by simp [hm]) rfl

omit hm in
/-- The wait times out exactly at a count of 250, since no run counts further (R207). -/
theorem handleAwaitDataToken_raises (hp : s.phase = .awaitDataToken) (hw : s.waitCount ≤ 250) :
    Raises (raisedBy s rx) s (handleAwaitDataToken rx s) := by
  have timesOut : s.waitCount = 250 ↔ s.waitCount + 1 > dataTokenWaitMax := by
    unfold dataTokenWaitMax; bv_omega
  have cleared : raiseFault .busTimeout { s with waitCount := s.waitCount + 1 } =
      raiseFault .busTimeout s := raiseFault_congr _ rfl rfl rfl rfl rfl rfl rfl rfl
  have row : raisedBy s rx =
      if rx ≠ 0xFE ∧ rx ≠ 0xFF then some .bringupMismatch
      else if rx = 0xFF ∧ s.waitCount = 250 then some .busTimeout else none := by
    simp only [raisedBy, hp]
  rw [row, handleAwaitDataToken, cleared]
  by_cases token : rx = 0xFE
  · subst token
    exact .of_none rfl rfl
  have notToken : ¬ rx = dataToken := token
  rw [if_neg notToken]
  by_cases idle : rx = 0xFF
  · rw [if_pos idle, if_neg fun h => h.2 idle]
    exact .then_fault ((and_iff_right idle).trans timesOut) rfl
  · rw [if_neg idle]
    exact .of_some (if_pos ⟨token, idle⟩)

/-- The table's index in mode Idle is the step counter. -/
theorem tableIndex_eq_zero_iff : (if s.mode = .idle then s.step.toNat else 0) = 0 ↔ s.step = 0 := by
  rw [if_pos hm]
  bv_omega

theorem handleWriting_raises (hp : s.phase = .writing) :
    Raises (raisedBy s rx) s (handleWriting rx s) := by
  simp only [raisedBy, hp, handleWriting, tableIndex_eq_zero_iff hm]
  by_cases first : s.step = 0
  · rw [if_pos first]
    exact .then_fault (by simp [hm, first]) rfl
  · rw [if_neg first]
    exact .of_none (if_neg fun ⟨_, zero, _⟩ => first zero) (handleWritingPacket_raised s)

theorem handleAwaitWriteBusy_raises (hp : s.phase = .awaitWriteBusy) :
    Raises (raisedBy s rx) s (handleAwaitWriteBusy rx s) := by
  simp only [raisedBy, hp, handleAwaitWriteBusy, tableIndex_eq_zero_iff hm]
  by_cases first : s.step = 0
  · rw [if_pos first]
    exact .else_fault (by rw [isAcceptToken_iff]; exact and_iff_right first) rfl
  · rw [if_neg first]
    exact .of_none (if_neg fun ⟨zero, _⟩ => first zero) (handleBusyPoll_raised rx s)

theorem handleAwaitStatus_raises (hp : s.phase = .awaitStatus) :
    Raises (raisedBy s rx) s (handleAwaitStatus rx s) := by
  simp only [raisedBy, hp]
  refine .then_fault (by simp [hm]) ?_
  split
  · rfl
  · exact awaitStatusDone_raised s

end Handlers

/-- A handler raises what the table says of the state in which it examines the byte. -/
theorem Examined.phaseDispatch_raises {s t : State} {rx : Byte} (he : Examined s)
    (h : phaseDispatch rx s = .next t) : Raises (raisedBy s rx) s t := by
  rcases phaseDispatch_cases h with ⟨hp, rfl⟩ | ⟨hp, rfl⟩ | ⟨hp, h⟩ | ⟨hp, rfl⟩ | ⟨hp, rfl⟩ |
    ⟨hp, rfl⟩ | ⟨hp, rfl⟩ | ⟨hp, rfl⟩ | ⟨hp, rfl⟩ | ⟨hp, rfl⟩ | ⟨hp, rfl⟩
  · exact .of_none (by simp only [raisedBy, hp]) (handlePowerOnClock_raised s)
  · exact handleAwaitReset_raises rx he.mode hp
  · exact handleAwaitInterfaceCheck_raises he.mode hp h
  · exact handleAwaitReady_raises rx he.mode hp
  · exact handleAwaitBlockLenAck_raises rx he.mode hp
  · exact handleAwaitReadAck_raises rx he.mode hp
  · exact handleAwaitDataToken_raises rx hp he.waits
  · exact .of_none (by simp only [raisedBy, hp]) (handleReadMetadataBlock_raised rx s)
  · exact handleWriting_raises rx he.mode hp
  · exact handleAwaitWriteBusy_raises rx he.mode hp
  · exact handleAwaitStatus_raises rx he.mode hp

/-! ### The table, before the event and while its byte is examined -/

/-- The table's index is the step counter the handler reads (R146). -/
theorem raisedBy_examining {s : State} {rx : Byte} (he : examines s rx) :
    raisedBy (examining s) rx = raisedBy s rx := by
  have examined : s.mode = .idle ∨ s.mode = .awaitingResponse ∧ rx ≠ 0xFF := he
  have index : (if s.mode = .idle then s.step else 0).toNat =
      if s.mode = .idle then s.step.toNat else 0 := by split <;> rfl
  rw [examining_of_examines he]
  simp only [raisedBy, examined, true_or, if_true, index]

theorem RegistersOk.awaitsCommand {s : State} (h : RegistersOk s) (hm : s.mode ≠ .idle) :
    s.phase.awaitsCommand = true := by
  cases e : s.mode with
  | idle => exact absurd e hm
  | sendingCommand => exact (h.sending e).2.2
  | awaitingResponse => exact (h.awaiting e).2

/-- A byte that no handler examines is in no row: the rows that do not ask for it are in phases held
in mode Idle only. -/
theorem RegistersOk.raisedBy_eq_none {s : State} {rx : Byte} (h : RegistersOk s)
    (he : ¬ examines s rx) : raisedBy s rx = none := by
  have unexamined : ¬ (s.mode = .idle ∨ s.mode = .awaitingResponse ∧ rx ≠ 0xFF) := he
  have awaits := h.awaitsCommand fun hm => he (.inl hm)
  cases hp : s.phase with
  | awaitDataToken | awaitWriteBusy => rw [hp] at awaits; cases awaits
  | awaitReset | awaitInterfaceCheck | awaitReady | awaitBlockLenAck | awaitReadAck | writing
  | awaitStatus =>
    simp only [raisedBy, hp, unexamined, false_and, if_false]
  | powerOnClock | readMetadataBlock | ready | deselectIdle | fault => simp only [raisedBy, hp]

/-- An event raises what the table says: the handler's row, or nothing where the frame is sent on or
`0xFF` is skipped. -/
theorem byteEvent_raises {s t : State} {rx : Byte} (hs : RegistersOk s)
    (h : byteEvent rx s = .next t) : Raises (raisedBy s rx) s t := by
  obtain ⟨-, hf, ⟨hm, rfl⟩ | ⟨hm, hx, rfl⟩ | ⟨he, h⟩⟩ := byteEvent_cases h
  · exact .of_none (hs.raisedBy_eq_none (by simp [examines, hm])) (frameStep_raised _)
  · exact .of_none (hs.raisedBy_eq_none (by simp [examines, hm, hx])) rfl
  · have examined := hs.examined hf (not_sending_of_examines he)
    have raises := examined.phaseDispatch_raises h
    rw [raisedBy_examining he] at raises
    exact raises.of_examining

/-- Settles O39: each handler faults in its row of the table only, and a fault taken while a byte is
examined is one taken from the state before the event. -/
theorem faultsAreExactlyTheTable : Obligations.FaultsAreExactlyTheTable :=
  fun _ _ _ hs h => (byteEvent_raises hs h).faultTaken

end Sys2Proof.Machine

/-! ## The waits have no bound (R338) -/

namespace Sys2Proof.Machine

/-- A round of events whose only effect is the reports it adds can be repeated for as long as the
device likes. -/
theorem byteEvents_rounds {s : State} {round : List Byte} {sent : List StepOutcome}
    (h : ∀ outs, byteEvents round { s with outs := outs } =
      .next { s with outs := outs ++ sent }) (n : Nat) :
    ∀ outs, byteEvents (List.replicate n round).flatten { s with outs := outs } =
      .next { s with outs := outs ++ (List.replicate n sent).flatten } := by
  induction n with
  | zero => intro outs; simp [byteEvents]
  | succ n ih =>
    intro outs
    rw [List.replicate_succ, List.flatten_cons, byteEvents_append_next (h outs) (ih _)]
    simp [List.replicate_succ]

/-- The idle bytes before a response (R146). -/
theorem byteEvents_responseWait {s : State} (n : Nat) (hs : s.started = true)
    (hf : s.inFlight = true) (hm : s.mode = .awaitingResponse) :
    byteEvents (List.replicate n 0xFF) s = .next
      { s with outs := s.outs ++ List.replicate n (.transmit 0xFF) } := by
  have skip (outs : List StepOutcome) : byteEvents [0xFF] { s with outs := outs } =
      .next { s with outs := outs ++ [.transmit 0xFF] } := by
    rw [byteEvents, byteEvent_skip (by exact hs) (by exact hf) (by exact hm)]
    rfl
  simpa using byteEvents_rounds skip n s.outs

/-- A round of the CMD1 poll (R204): the idle answer issues CMD1 again, and once the frame is out the
wait is where it was. -/
theorem byteEvents_cmd1Round {s : State} {ignored : List Byte} (hs : s.started = true)
    (hf : s.inFlight = true) (hp : s.phase = .awaitReady) (hm : s.mode = .awaitingResponse)
    (h0 : s.step = 0) (cleared : s.frame = ⟨0, 0, 0, 0, 0, 0⟩) (six : ignored.length = 6) :
    byteEvents (0x01 :: ignored) s = .next
      { s with outs := s.outs ++
          (Frame.onBus ⟨0x41, 0x00, 0x00, 0x00, 0x00, 0x00⟩).map .transmit } := by
  have awaited (sent : List Byte) : s.answerAwaited .awaitReady sent =
      { s with outs := s.outs ++ sent.map .transmit } := by
    rw [State.answerAwaited, ← cleared, ← hp, ← hm, ← h0, ← hf]
  have issued := byteEvent_awaitReady_idle hs hf (by rw [hm]; decide) hp
  have polled : byteEvents [0x01] s = .next
      ((s.answerAwaited .awaitReady []).frameIssued
        ⟨0x41, 0x00, 0x00, 0x00, 0x00, 0x00⟩ .awaitReady) := by
    rw [byteEvents, issued, awaited]
    simp [byteEvents, State.frameIssued]
  exact (byteEvents_frameSent hs polled six).trans (congrArg _ (awaited _))

/-- Settles O42: the response wait and the CMD1 poll repeat a round that changes no register, the
busy poll is `byteEvents_busy`, and a `request_write(0)` keeps the pause. -/
theorem waitsHaveNoBound : Obligations.WaitsHaveNoBound := by
  intro n s ignored hs six
  refine ⟨?response, ?cmd1, ?busy, ?paused⟩
  case response => exact byteEvents_responseWait n hs
  case cmd1 =>
    intro hf hp hm h0 cleared
    exact ⟨_, byteEvents_rounds
      (fun _ => byteEvents_cmd1Round hs hf hp hm h0 cleared six) n s.outs⟩
  case busy =>
    intro hf hp hm hk
    simpa using byteEvents_busy n hs hf hp hm hk
  case paused =>
    intro hp hf
    exact (requestWriteInReady s hs hp hf).1

end Sys2Proof.Machine
